-- ==== Sys2Proof/Word.lean ====
section
/-! DEFINITION. The words of the APS: bytes, 4-bit wave entries, samples and command words (spec R13, R50, R101). -/

namespace Sys2Proof

/-- A byte written to a register: an unsigned integer 0 to 255 (R13, D4). -/
abbrev Byte := BitVec 8

/-- A wave-table entry: 4 bits, unsigned (R50). -/
abbrev Nibble := BitVec 4

/-- A sample: an unsigned 8-bit integer (R13). -/
abbrev Sample := BitVec 8

/-- A command word: 16 bits, presented to the block as one value (R84, R101). -/
abbrev CommandWord := BitVec 16

end Sys2Proof
end

