-- ==== Sys2Proof/Syntax.lean ====
section
/-! DEFINITION. The commands of the APS, one constructor per row of `spec/opcode_table.json` (R121), and the written
syntax of the spec's listings with its two pseudo-commands (R123, R124). -/

namespace Sys2Proof

/-- A command of the block. `WRC` (write control register) has one row, so one constructor, per channel and register
index (R130 to R141); `value` is the byte written. `widx` of `WWT` is the 6-bit wave-byte index, of which 16 to 63 is
defined and raises an error (R103, R144). -/
inductive Instr where
  /-- `WRC P1,0`: R131. -/
  | wrcP1_0 (value : Byte)
  /-- `WRC P1,1`: R132. -/
  | wrcP1_1 (value : Byte)
  /-- `WRC P1,2`: R133. -/
  | wrcP1_2 (value : Byte)
  /-- `WRC P1,3`: R134. -/
  | wrcP1_3 (value : Byte)
  /-- `WRC P1,4`: R135. -/
  | wrcP1_4 (value : Byte)
  /-- `WRC P2,0`: R131. -/
  | wrcP2_0 (value : Byte)
  /-- `WRC P2,1`: R132. -/
  | wrcP2_1 (value : Byte)
  /-- `WRC P2,2`: R133. -/
  | wrcP2_2 (value : Byte)
  /-- `WRC P2,3`: R134. -/
  | wrcP2_3 (value : Byte)
  /-- `WRC P2,4`: R135. -/
  | wrcP2_4 (value : Byte)
  /-- `WRC W,0`: R137. -/
  | wrcW_0 (value : Byte)
  /-- `WRC W,1`: R138. -/
  | wrcW_1 (value : Byte)
  /-- `WRC W,2`: R139. -/
  | wrcW_2 (value : Byte)
  /-- `WRC W,3`: R140. -/
  | wrcW_3 (value : Byte)
  /-- `WRC W,4`: R141. -/
  | wrcW_4 (value : Byte)
  /-- `WWT`: R143, R144. -/
  | wwt (widx : BitVec 6) (value : Byte)
  /-- `TICK`: R206. -/
  | tick
  /-- `RESET`: R221. -/
  | reset
  deriving DecidableEq, Repr

/-- The three channel instances, by the spec's names (R2, R106). -/
inductive Channel where
  | p1
  | p2
  | w
  deriving DecidableEq, Repr

/-- A line of a listing as R123 and R124 write it, its numbers not yet checked against their ranges. -/
inductive WrittenCommand where
  /-- `WRC <ch>, <idx>, <value>`. -/
  | wrc (ch : Channel) (idx value : Nat)
  /-- `WWT <widx>, <value>`. -/
  | wwt (widx value : Nat)
  /-- `TICK`; the sink's answer is the environment's and no operand. -/
  | tick
  /-- `RESET`. -/
  | reset
  /-- The pseudo-command `TRIG <ch>, <f>, <le>`. -/
  | trig (ch : Channel) (f le : Nat)
  /-- The pseudo-command `WAVE16 b0, …, b15`. -/
  | wave16 (bytes : List Nat)
  deriving DecidableEq, Repr

end Sys2Proof
end

