-- ==== Sys2Proof/WellFormed.lean ====
section
/-! DEFINITION. Which written commands are well formed (R123, R124). A term of `Instr` needs no check: the types of its
operands are the widths of the command word's fields (R102, R103), so every term of it has a word. -/

namespace Sys2Proof

/-- The operand ranges of the written syntax: `idx` 0 to 4, a byte, `widx` 0 to 63 (R123), an 11-bit frequency, one bit,
sixteen bytes (R124). -/
def WrittenCommand.wellFormed : WrittenCommand → Bool
  | .wrc _ idx value => decide (idx ≤ 4) && decide (value ≤ 255)
  | .wwt widx value => decide (widx ≤ 63) && decide (value ≤ 255)
  | .tick => true
  | .reset => true
  | .trig _ f le => decide (f ≤ 2047) && decide (le ≤ 1)
  | .wave16 bytes => decide (bytes.length = 16) && bytes.all fun b => decide (b ≤ 255)

end Sys2Proof
end

