-- ==== Sys2Proof/Decode.lean ====
section
/-! DEFINITION. The command word: its decoder, total on all 65536 words (R120), the encoder written from the same
formats (R101 to R106), the opcode map (R121), and the assembler of the written syntax (R123, R124). -/

namespace Sys2Proof

/-- The command a WRC word spells, by channel code and register index (R102, R106, R121). -/
def decodeWrc (ch : BitVec 2) (idx : BitVec 3) (value : Byte) : Option Instr :=
  match ch.toNat, idx.toNat with
  | 0, 0 => some (.wrcP1_0 value)
  | 0, 1 => some (.wrcP1_1 value)
  | 0, 2 => some (.wrcP1_2 value)
  | 0, 3 => some (.wrcP1_3 value)
  | 0, 4 => some (.wrcP1_4 value)
  | 1, 0 => some (.wrcP2_0 value)
  | 1, 1 => some (.wrcP2_1 value)
  | 1, 2 => some (.wrcP2_2 value)
  | 1, 3 => some (.wrcP2_3 value)
  | 1, 4 => some (.wrcP2_4 value)
  | 2, 0 => some (.wrcW_0 value)
  | 2, 1 => some (.wrcW_1 value)
  | 2, 2 => some (.wrcW_2 value)
  | 2, 3 => some (.wrcW_3 value)
  | 2, 4 => some (.wrcW_4 value)
  | _, _ => none

/-- The decoding algorithm of R120. `none` is the spec's "invalid": a reserved word (R107). -/
def decode (word : CommandWord) : Option Instr :=
  let op := word.extractLsb' 14 2
  let low14 := word.extractLsb' 0 14
  let value := word.extractLsb' 0 8
  if op = 0b00#2 then
    let ch := word.extractLsb' 12 2
    let idx := word.extractLsb' 8 3
    if ch = 0b11#2 ∨ word.getLsbD 11 = true ∨ idx.toNat > 4 then none
    else decodeWrc ch idx value
  else if op = 0b01#2 then some (.wwt (word.extractLsb' 8 6) value)
  else if op = 0b10#2 then (if low14 = 0#14 then some .tick else none)
  else (if low14 = 0#14 then some .reset else none)

/-- Format WRC: `op` 00, `ch`, a zero bit, `idx`, `value` (R102). -/
def wrcWord (ch : BitVec 2) (idx : BitVec 3) (value : Byte) : CommandWord :=
  0b00#2 ++ ch ++ 0b0#1 ++ idx ++ value

/-- Format WWT: `op` 01, `widx`, `value` (R103). -/
def wwtWord (widx : BitVec 6) (value : Byte) : CommandWord :=
  0b01#2 ++ widx ++ value

/-- The word of a command (R101 to R106). -/
def encode : Instr → CommandWord
  | .wrcP1_0 v => wrcWord 0 0 v
  | .wrcP1_1 v => wrcWord 0 1 v
  | .wrcP1_2 v => wrcWord 0 2 v
  | .wrcP1_3 v => wrcWord 0 3 v
  | .wrcP1_4 v => wrcWord 0 4 v
  | .wrcP2_0 v => wrcWord 1 0 v
  | .wrcP2_1 v => wrcWord 1 1 v
  | .wrcP2_2 v => wrcWord 1 2 v
  | .wrcP2_3 v => wrcWord 1 3 v
  | .wrcP2_4 v => wrcWord 1 4 v
  | .wrcW_0 v => wrcWord 2 0 v
  | .wrcW_1 v => wrcWord 2 1 v
  | .wrcW_2 v => wrcWord 2 2 v
  | .wrcW_3 v => wrcWord 2 3 v
  | .wrcW_4 v => wrcWord 2 4 v
  | .wwt widx v => wwtWord widx v
  | .tick => 0x8000#16
  | .reset => 0xC000#16

/-- A command's row of the opcode map of R121, as (match, mask): a word selects the row when `word & mask = match`. -/
def opcodeRow : Instr → CommandWord × CommandWord
  | .wrcP1_0 _ => (0x0000#16, 0xFF00#16)
  | .wrcP1_1 _ => (0x0100#16, 0xFF00#16)
  | .wrcP1_2 _ => (0x0200#16, 0xFF00#16)
  | .wrcP1_3 _ => (0x0300#16, 0xFF00#16)
  | .wrcP1_4 _ => (0x0400#16, 0xFF00#16)
  | .wrcP2_0 _ => (0x1000#16, 0xFF00#16)
  | .wrcP2_1 _ => (0x1100#16, 0xFF00#16)
  | .wrcP2_2 _ => (0x1200#16, 0xFF00#16)
  | .wrcP2_3 _ => (0x1300#16, 0xFF00#16)
  | .wrcP2_4 _ => (0x1400#16, 0xFF00#16)
  | .wrcW_0 _ => (0x2000#16, 0xFF00#16)
  | .wrcW_1 _ => (0x2100#16, 0xFF00#16)
  | .wrcW_2 _ => (0x2200#16, 0xFF00#16)
  | .wrcW_3 _ => (0x2300#16, 0xFF00#16)
  | .wrcW_4 _ => (0x2400#16, 0xFF00#16)
  | .wwt _ _ => (0x4000#16, 0xC000#16)
  | .tick => (0x8000#16, 0xFFFF#16)
  | .reset => (0xC000#16, 0xFFFF#16)

/-- The command word whose `nbits` low bits are those of `w`, every bit above them 0. The word has no serialisation into
bytes (R84), so the table's numbering of the bits is the word's own. -/
def tableWord (nbits w : Nat) : CommandWord := BitVec.ofNat 16 (w % 2 ^ nbits)

/-- What the decoder reads from a word numbered as `spec/opcode_table.json` numbers it. -/
def decodeTableWord (nbits w : Nat) : Option Instr :=
  if nbits ≤ 16 then decode (tableWord nbits w) else none

/-- `WRC <ch>, <idx>, <value>` as a command; an index above 4 spells none (R145). -/
def assembleWrc (ch : Channel) (idx : Nat) (value : Byte) : Option Instr :=
  match ch with
  | .p1 => decodeWrc 0 (BitVec.ofNat 3 idx) value
  | .p2 => decodeWrc 1 (BitVec.ofNat 3 idx) value
  | .w => decodeWrc 2 (BitVec.ofNat 3 idx) value

/-- `WWT j, b0` then `WWT j+1, b1` and so on: the expansion of `WAVE16` from byte index `j` (R124). -/
def assembleWaveBytes : Nat → List Nat → List Instr
  | _, [] => []
  | j, b :: rest => .wwt (BitVec.ofNat 6 j) (BitVec.ofNat 8 b) :: assembleWaveBytes (j + 1) rest

/-- The commands a written line stands for (R123), pseudo-commands expanded (R124): `TRIG` is a write of `f[7:0]` to
index 3, then of `0x80 | (le << 6) | f[10:8]` to index 4. `none` for an ill-formed line. -/
def assemble (c : WrittenCommand) : Option (List Instr) :=
  if c.wellFormed then
    match c with
    | .wrc ch idx value => (assembleWrc ch idx (BitVec.ofNat 8 value)).map fun i => [i]
    | .wwt widx value => some [.wwt (BitVec.ofNat 6 widx) (BitVec.ofNat 8 value)]
    | .tick => some [.tick]
    | .reset => some [.reset]
    | .trig ch f le =>
      match assembleWrc ch 3 (BitVec.ofNat 8 (f % 256)),
          assembleWrc ch 4 (BitVec.ofNat 8 (128 + 64 * le + f / 256)) with
      | some low, some high => some [low, high]
      | _, _ => none
    | .wave16 bytes => some (assembleWaveBytes 0 bytes)
  else none

end Sys2Proof
end

