-- ==== Sys2Proof/Config.lean ====
section
/-! DEFINITION. What an instance of the APS fixes (the spec's parameters `F` and `StepIndex`, R11) and the free values
the spec leaves open (the sink's answers, R246, and the unspecified samples, R51, R52). -/

namespace Sys2Proof

/-- The parameters of an instance of the block (R11). They are plain data held in the state, so that a statement over
every state is a statement over every instance; no command changes them (R222). Log entries 2 and 3. -/
structure Params where
  /-- `F`, the fixed per-tick sample count: any natural number, 2730 by default (R11, D12). -/
  frameSampleCount : Nat
  /-- `StepIndex` (R11, U7): the points (frequency, sample index) at which the instance's arithmetic gives the wave
  channel another table entry than exact rational arithmetic does, each with the entry it gives (0 to 31).
  The spec's own value is the empty list: exact arithmetic everywhere (R19, D7). -/
  stepIndex : List (BitVec 11 × Nat × BitVec 5)
  deriving DecidableEq, Repr

namespace Config

/-- FREE VALUE (log entry 4): what the sink's `availableCapacity()` answers at a TICK for which the state lists no
answer: any natural number, under no law (R246, D13, U13). The argument is the state's draw counter. -/
opaque freeCapacity : Nat → Nat

/-- FREE VALUE (log entry 5): a sample the spec leaves unspecified: a scratch entry at an index the channel tick was not
asked for (R52, R173, R191), and every entry of both buffers after RESET (R222). The arguments are the state's draw
counter and the sample's index. -/
opaque freeSample : Nat → Nat → Sample

end Config

end Sys2Proof
end

