-- ==== Sys2Proof/Machine/State.lean ====
section
/-! DEFINITION. The state of the APS (R30 to R61), its stops, the responses of its commands, and the state after reset
(R59, R223). -/

namespace Sys2Proof.Machine

/-- The fields of a pulse channel, `P1` or `P2` (R34 to R44). -/
structure PulseChannel where
  /-- R34. -/
  duty : BitVec 2
  /-- R35. -/
  lengthLoad : BitVec 6
  /-- R36: a signed integer of no stated width (D14). -/
  lengthCounter : Int
  /-- R37. -/
  lengthEnabled : Bool
  /-- R38. -/
  startingVolume : BitVec 4
  /-- R39. -/
  currentVolume : BitVec 4
  /-- R40: true adds, false subtracts. -/
  envelopeAdd : Bool
  /-- R41. -/
  envelopePeriod : BitVec 3
  /-- R42. -/
  frequency : BitVec 11
  /-- R43. -/
  playing : Bool
  /-- R44: an unbounded natural number (D15). -/
  ticks : Nat
  deriving DecidableEq, Repr

/-- The fields of the wave channel `W` and its wave table (R45 to R50). -/
structure WaveChannel where
  /-- R45: stored, read by no rule. -/
  dacPower : Bool
  /-- R46. -/
  lengthLoad : BitVec 8
  /-- R36, R49. -/
  lengthCounter : Int
  /-- R37, R49. -/
  lengthEnabled : Bool
  /-- R47. -/
  volumeCode : BitVec 2
  /-- R42, R49. -/
  frequency : BitVec 11
  /-- R43, R49. -/
  playing : Bool
  /-- R44, R49: counted, read by no rule. -/
  ticks : Nat
  /-- `TBL[0]` to `TBL[31]` (R50). -/
  table : Vector Nibble 32
  deriving DecidableEq, Repr

/-- A sample buffer, index 0 upward; `MST` and `SCR` hold exactly `F` samples each (R51, R52). -/
abbrev Buffer := List Sample

/-- The sink as the block sees it (R53, R245, R246). -/
structure Sink where
  /-- The launch premise "the sink is open" (R234, R262). -/
  isOpen : Bool
  /-- What `availableCapacity()` will answer, next TICK first; where the list ends the answer is a free value.
  The source's type is `int`, so an answer may be negative, and is then refused (R246, D13). -/
  answers : List Int
  deriving DecidableEq, Repr

/-- The response of a command (R22, R230): `OK`, or `INVALID_ARGUMENT` with the index it records. -/
inductive Response where
  | ok
  | invalidArgument (widx : BitVec 6)
  deriving DecidableEq, Repr

/-- The conditions of the error taxonomy (R230). -/
inductive ErrorName where
  | ok
  | invalidArgument
  | invalidConfiguration
  | sinkUnavailable
  deriving DecidableEq, Repr

/-- The state of the block and, beside it, what its steps read from and leave to the outside. -/
structure State where
  /-- Pulse channel `P1`. -/
  p1 : PulseChannel
  /-- Pulse channel `P2`. -/
  p2 : PulseChannel
  /-- Wave channel `W`, with the wave table. -/
  w : WaveChannel
  /-- Master buffer `MST` (R51). -/
  mst : Buffer
  /-- Scratch buffer `SCR` (R52). -/
  scr : Buffer
  /-- The output history `OUT`, oldest block first (R53). -/
  out : List (List Sample)
  /-- The response of each command so far, oldest first (R22). -/
  responses : List Response
  /-- The instance's parameters (R11); no command writes them. -/
  params : Params
  /-- The sink (R53). -/
  sink : Sink
  /-- The command port: the commands that have arrived and not yet run, next first (R33, R93; log entry 1). -/
  port : List CommandWord
  /-- THE MODEL'S OWN: how many free values have been drawn (log entry 5). -/
  freeDraws : Nat
  deriving DecidableEq, Repr

/-- Why a command faults (R236). A fault puts the run outside every claim, so stopping is safe. -/
inductive Fault where
  /-- Raised by TICK when a playing channel's `waveLength` is 0 (R172, R190, R211; D10). Safe: the spec gives the
  command no result and the state after it no value. -/
  | zeroWaveLength
  deriving DecidableEq, Repr

/-- Why a command is refused (R237). -/
inductive Refusal where
  /-- Raised by `exec` for an instruction whose meaning is not written. No arm of this model raises it. Safe. -/
  | notModelled (mnemonic : String)
  /-- Raised by `step` for a word that spells no command (R107, R237). Safe. -/
  | reservedCommand (word : CommandWord)
  /-- Raised by TICK while the sink is closed (R234, R237, D22). Safe. -/
  | sinkClosed
  /-- Raised by TICK when the sink answers a negative capacity (R237, R246, D13). Safe. -/
  | negativeCapacity
  deriving DecidableEq, Repr

/-- A pulse channel at reset: every field 0 or false (R59). -/
def PulseChannel.reset : PulseChannel where
  duty := 0
  lengthLoad := 0
  lengthCounter := 0
  lengthEnabled := false
  startingVolume := 0
  currentVolume := 0
  envelopeAdd := false
  envelopePeriod := 0
  frequency := 0
  playing := false
  ticks := 0

/-- The wave channel at reset: every field and every table entry 0 or false (R59). -/
def WaveChannel.reset : WaveChannel where
  dacPower := false
  lengthLoad := 0
  lengthCounter := 0
  lengthEnabled := false
  volumeCode := 0
  frequency := 0
  playing := false
  ticks := 0
  table := Vector.replicate 32 0

/-- The parameters an instance has where nobody says otherwise: `F` = 2730 and exact arithmetic (R11, D12, D7). -/
def defaultParams : Params where
  frameSampleCount := 2730
  stepIndex := []

/-- The machine at power-on (R59, R223, R262): channels and wave table at their defaults, `OUT` empty, the sink open,
no command yet. The spec leaves `MST` and `SCR` unspecified; here they hold zeros. DESIGN CHOICE, log entry 6. -/
def State.reset : State where
  p1 := PulseChannel.reset
  p2 := PulseChannel.reset
  w := WaveChannel.reset
  mst := List.replicate defaultParams.frameSampleCount 0
  scr := List.replicate defaultParams.frameSampleCount 0
  out := []
  responses := []
  params := defaultParams
  sink := { isOpen := true, answers := [] }
  port := []
  freeDraws := 0

end Sys2Proof.Machine
end

