-- ==== Sys2Proof/Machine/Flags.lean ====
section
/-! DEFINITION. The one-bit fields of the block (R54): the bits of a written byte that set them, and the two tests a
channel tick makes (R163, R164). -/

namespace Sys2Proof.Machine

/-- Bit 7 of a value written to index 4: the trigger bit, assigned to `playing` (R112, R135). -/
def triggerBit (value : Byte) : Bool := value.getLsbD 7

/-- Bit 6 of a value written to index 4, assigned to `lengthEnabled` (R112, R135). -/
def lengthEnableBit (value : Byte) : Bool := value.getLsbD 6

/-- Bit 3 of a value written to pulse index 2, assigned to `envelopeAdd` (R110, R133). -/
def envelopeAddBit (value : Byte) : Bool := value.getLsbD 3

/-- Bit 7 of a value written to wave index 0, assigned to `dacPower` (R113, R137). -/
def dacPowerBit (value : Byte) : Bool := value.getLsbD 7

/-- The length counter's test: `≤ 0`, not `= 0` (R18, R163). -/
def lengthExpired (counter : Int) : Bool := decide (counter ≤ 0)

/-- The envelope's test, on the tick count already incremented (R164). -/
def envelopeDue (period : BitVec 3) (ticks : Nat) : Bool :=
  decide (period.toNat ≠ 0) && decide (ticks % period.toNat = 0)

end Sys2Proof.Machine
end

