-- ==== Sys2Proof/Machine/Operands.lean ====
section
/-! DEFINITION. The fields of a written byte (R108 to R119), the duty patterns (R165), the volume divider (R184) and the
sizes and step indexes of the two channel kinds (R19, R166, R183, U7). -/

namespace Sys2Proof.Machine

/-- `value[7:6]` of pulse index 1 (R109). -/
def dutyField (value : Byte) : BitVec 2 := value.extractLsb' 6 2

/-- `value[5:0]` of pulse index 1 (R109). -/
def pulseLengthField (value : Byte) : BitVec 6 := value.extractLsb' 0 6

/-- `value[7:4]` of pulse index 2 (R110). -/
def volumeField (value : Byte) : BitVec 4 := value.extractLsb' 4 4

/-- `value[2:0]` of pulse index 2 (R110). -/
def envelopePeriodField (value : Byte) : BitVec 3 := value.extractLsb' 0 3

/-- `value[6:5]` of wave index 2 (R115). -/
def volumeCodeField (value : Byte) : BitVec 2 := value.extractLsb' 5 2

/-- `value[7:4]` of a wave-table byte: the even entry (R118). -/
def highNibble (value : Byte) : Nibble := value.extractLsb' 4 4

/-- `value[3:0]` of a wave-table byte: the odd entry (R118). -/
def lowNibble (value : Byte) : Nibble := value.extractLsb' 0 4

/-- Index 3: `(frequency & 0x700) | value[7:0]` (R119). -/
def withFrequencyLow (frequency : BitVec 11) (value : Byte) : BitVec 11 :=
  (frequency &&& 0x700#11) ||| value.setWidth 11

/-- Index 4: `(frequency & 0x0FF) | (value[2:0] << 8)` (R119). -/
def withFrequencyHigh (frequency : BitVec 11) (value : Byte) : BitVec 11 :=
  (frequency &&& 0x0FF#11) ||| ((value.extractLsb' 0 3).setWidth 11 <<< 8)

/-- `DUTY_TABLE` (R10, R165). -/
def dutyTable : Vector Byte 4 := #v[0b00100000#8, 0b00110000#8, 0b00111100#8, 0b01111110#8]

/-- Whether step `step` of the duty pattern is high: bit `7 − step`, the pattern played left to right (R165, D6). -/
def dutyStepHigh (duty : BitVec 2) (step : Nat) : Bool :=
  (dutyTable[duty.toNat]'duty.isLt).getLsbD (7 - step)

/-- The volume divider `Vol(a)`: mute, full, half, quarter for code 0, 1, 2, 3 (R184, D9). -/
def dividedAmplitude (code : BitVec 2) (a : Nat) : Nat :=
  if code = 0 then 0 else if code = 1 then a else if code = 2 then a / 2 else a / 4

/-- `n = 2048 − frequency`, 1 to 2048 (R16). -/
def periodBase (frequency : BitVec 11) : Nat := 2048 - frequency.toNat

/-- The pulse `waveLength = floor(8 × n/24) = n div 3` (R166). -/
def pulseWaveLength (frequency : BitVec 11) : Nat := periodBase frequency / 3

/-- The wave `waveLength = floor(32 × n/48) = (2 × n) div 3` (R183). -/
def waveWaveLength (frequency : BitVec 11) : Nat := 2 * periodBase frequency / 3

/-- The pulse step of sample `i` of the pattern, `floor(i / (n/24)) = (24 × i) div n` (R19, R167). -/
def pulseStep (frequency : BitVec 11) (i : Nat) : Nat := 24 * i / periodBase frequency

/-- The table entry of sample `i` of the wave pattern by exact arithmetic, `(48 × i) div n`; it is at most 31 for every
`i` below `waveLength` (R19, R92, R185). -/
def exactWaveEntry (frequency : BitVec 11) (i : Nat) : BitVec 5 :=
  BitVec.ofNat 5 (48 * i / periodBase frequency)

/-- The table entry of sample `i` of the wave pattern by the instance's arithmetic: the entry the parameter `StepIndex`
gives for the point, the exact one where it gives none (R11, R19, U7; log entry 3). -/
def waveEntry (params : Params) (frequency : BitVec 11) (i : Nat) : BitVec 5 :=
  match params.stepIndex.find? fun point => point.1 == frequency && point.2.1 == i with
  | some point => point.2.2
  | none => exactWaveEntry frequency i

end Sys2Proof.Machine
end

