-- ==== Sys2Proof/Machine/Ops.lean ====
section
/-! DEFINITION. The shared operations of the block: register writes with their reload, the length and envelope state
machines, tiling and the tail ramp, the two channel ticks, mixing, and the exchanges with the sink, the command port and
the caller. Every meaning is a few of these in a row. -/

namespace Sys2Proof.Machine

/-- Go on from a next state; a fault or a refusal ends the command. -/
def andThen {σ φ ρ : Type} (o : Host.Outcome σ φ ρ) (k : σ → Host.Outcome σ φ ρ) : Host.Outcome σ φ ρ :=
  match o with
  | .next s => k s
  | .fault r => .fault r
  | .refused r => .refused r

/-! ### Whole-channel updates and responses -/

/-- Replace channel `P1`. -/
def State.setP1 (s : State) (ch : PulseChannel) : State := { s with p1 := ch }

/-- Replace channel `P2`. -/
def State.setP2 (s : State) (ch : PulseChannel) : State := { s with p2 := ch }

/-- Replace channel `W`, its table included. -/
def State.setW (s : State) (ch : WaveChannel) : State := { s with w := ch }

/-- End a command with a response to its caller (R22, R230). -/
def State.respond (s : State) (r : Response) : State := { s with responses := s.responses ++ [r] }

/-- `raise InvalidArgument(widx)`: the block's one error with an effect. It saves nothing and transfers control nowhere;
the caller gets the response and the state is as before the command (R144, R231, R240). There is no handler, so there
is nothing to return from (R241). -/
def raiseInvalidArgument (widx : BitVec 6) (s : State) : State := s.respond (.invalidArgument widx)

/-! ### The error taxonomy (R230) -/

/-- The taxonomy's name for a response. -/
def Response.errorName : Response → ErrorName
  | .ok => .ok
  | .invalidArgument _ => .invalidArgument

/-- The code of a condition (R230). -/
def ErrorName.code : ErrorName → Nat
  | .ok => 0
  | .invalidArgument => 1
  | .invalidConfiguration => 2
  | .sinkUnavailable => 3

/-- Whether the caller can recover from a condition (R230). `OK` is no condition and R230's table leaves its cell empty:
true there is the model's filler. DESIGN CHOICE, log entry 16. -/
def ErrorName.recoverable : ErrorName → Bool
  | .ok => true
  | .invalidArgument => true
  | .invalidConfiguration => false
  | .sinkUnavailable => false

/-! ### Register writes (R131 to R143) -/

/-- `Reload(ch)` of a pulse channel (R136). -/
def PulseChannel.reload (ch : PulseChannel) : PulseChannel :=
  if ch.lengthEnabled then { ch with lengthCounter := ch.lengthLoad.toNat } else ch

/-- `Reload(W)` (R142, D5). -/
def WaveChannel.reload (ch : WaveChannel) : WaveChannel :=
  if ch.lengthEnabled then { ch with lengthCounter := ch.lengthLoad.toNat } else ch

/-- Pulse index 1: duty and length load, then the reload (R132). -/
def PulseChannel.writeDutyLength (ch : PulseChannel) (value : Byte) : PulseChannel :=
  PulseChannel.reload { ch with duty := dutyField value, lengthLoad := pulseLengthField value }

/-- Pulse index 2: volume and envelope, then the reload (R133). -/
def PulseChannel.writeVolumeEnvelope (ch : PulseChannel) (value : Byte) : PulseChannel :=
  PulseChannel.reload
    { ch with
      startingVolume := volumeField value
      currentVolume := volumeField value
      envelopeAdd := envelopeAddBit value
      envelopePeriod := envelopePeriodField value }

/-- Pulse index 3: the low byte of the frequency, then the reload (R134). -/
def PulseChannel.writeFrequencyLow (ch : PulseChannel) (value : Byte) : PulseChannel :=
  PulseChannel.reload { ch with frequency := withFrequencyLow ch.frequency value }

/-- Pulse index 4: trigger, length enable and the high bits of the frequency, then the reload, which reads the
`lengthEnabled` just written (R135, R147). -/
def PulseChannel.writeTrigger (ch : PulseChannel) (value : Byte) : PulseChannel :=
  PulseChannel.reload
    { ch with
      playing := triggerBit value
      lengthEnabled := lengthEnableBit value
      frequency := withFrequencyHigh ch.frequency value }

/-- Wave index 0: DAC power, then the reload (R137). -/
def WaveChannel.writeDacPower (ch : WaveChannel) (value : Byte) : WaveChannel :=
  WaveChannel.reload { ch with dacPower := dacPowerBit value }

/-- Wave index 1: the length load, all 8 bits, then the reload (R138). -/
def WaveChannel.writeLength (ch : WaveChannel) (value : Byte) : WaveChannel :=
  WaveChannel.reload { ch with lengthLoad := value }

/-- Wave index 2: the volume code, then the reload (R139). -/
def WaveChannel.writeVolumeCode (ch : WaveChannel) (value : Byte) : WaveChannel :=
  WaveChannel.reload { ch with volumeCode := volumeCodeField value }

/-- Wave index 3: the low byte of the frequency, then the reload (R140). -/
def WaveChannel.writeFrequencyLow (ch : WaveChannel) (value : Byte) : WaveChannel :=
  WaveChannel.reload { ch with frequency := withFrequencyLow ch.frequency value }

/-- Wave index 4: as pulse index 4 (R141). -/
def WaveChannel.writeTrigger (ch : WaveChannel) (value : Byte) : WaveChannel :=
  WaveChannel.reload
    { ch with
      playing := triggerBit value
      lengthEnabled := lengthEnableBit value
      frequency := withFrequencyHigh ch.frequency value }

/-- A wave-table byte of index `j` below 16: `TBL[2j]` gets the high nibble, `TBL[2j+1]` the low one (R143). An index of
16 or more has no entries, and WWT never gets here with one. -/
def WaveChannel.writeTableByte (ch : WaveChannel) (j : Nat) (value : Byte) : WaveChannel :=
  { ch with table := (ch.table.setIfInBounds (2 * j) (highNibble value)).setIfInBounds (2 * j + 1) (lowNibble value) }

/-! ### The length counter and the envelope (R162 to R164, R182) -/

/-- Step 2: with length enabled, the counter less 4 (R163, R182). -/
def steppedCounter (lengthEnabled : Bool) (counter : Int) : Int :=
  if lengthEnabled then counter - 4 else counter

/-- Step 2: `playing` after the counter has stepped (R163, R182). -/
def steppedPlaying (lengthEnabled : Bool) (counter : Int) (playing : Bool) : Bool :=
  if lengthEnabled && lengthExpired (steppedCounter lengthEnabled counter) then false else playing

/-- `clamp(v, lo, hi)` (R13). -/
def clamp (v lo hi : Int) : Int := max lo (min hi v)

/-- The envelope step `currentVolume ± 3`, clamped to 0 to 15 (R17, R164). -/
def envelopeStep (add : Bool) (volume : BitVec 4) : BitVec 4 :=
  BitVec.ofInt 4 (clamp (if add then (volume.toNat : Int) + 3 else (volume.toNat : Int) - 3) 0 15)

/-- Steps 1 to 3 of a playing pulse channel: tick count, length counter, envelope on the count just incremented
(R162, R163, R164). -/
def PulseChannel.advance (ch : PulseChannel) : PulseChannel :=
  { ch with
    ticks := ch.ticks + 1
    lengthCounter := steppedCounter ch.lengthEnabled ch.lengthCounter
    playing := steppedPlaying ch.lengthEnabled ch.lengthCounter ch.playing
    currentVolume :=
      if envelopeDue ch.envelopePeriod (ch.ticks + 1) then envelopeStep ch.envelopeAdd ch.currentVolume
      else ch.currentVolume }

/-- Steps 1 and 2 of a playing wave channel; it has no envelope (R182). -/
def WaveChannel.advance (ch : WaveChannel) : WaveChannel :=
  { ch with
    ticks := ch.ticks + 1
    lengthCounter := steppedCounter ch.lengthEnabled ch.lengthCounter
    playing := steppedPlaying ch.lengthEnabled ch.lengthCounter ch.playing }

/-! ### Synthesis (R167 to R169, R185 to R187) -/

/-- `samplesWritten = max(1, N div L) × L`: the whole patterns of a request for `N` samples (R168, R186). -/
def samplesWritten (L N : Nat) : Nat := max 1 (N / L) * L

/-- Sample `i` of a request for `N`: the pattern tiled over the whole periods, then the ramp from `anchor` toward zero,
product before division (R168, R169, R187; D8). The request is cut at `N` when `N < L` (R173, R191; D11). -/
def tiledSample (pattern : Nat → Nat) (L anchor N i : Nat) : Nat :=
  if i < samplesWritten L N then pattern (i % L)
  else
    (N - samplesWritten L N - (i - samplesWritten L N)) * anchor / (N - samplesWritten L N)

/-- `buf[0..N)` of a channel tick. -/
def renderSamples (pattern : Nat → Nat) (L anchor N : Nat) : List Sample :=
  (List.range N).map fun i => BitVec.ofNat 8 (tiledSample pattern L anchor N i)

/-- Sample `i` of one pulse period: `currentVolume` on a high step, else 0 (R167). -/
def pulsePattern (ch : PulseChannel) (i : Nat) : Nat :=
  if dutyStepHigh ch.duty (pulseStep ch.frequency i) then ch.currentVolume.toNat else 0

/-- Sample `i` of one wave period: the divided table entry (R185). -/
def wavePattern (params : Params) (ch : WaveChannel) (i : Nat) : Nat :=
  dividedAmplitude ch.volumeCode
    (ch.table[(waveEntry params ch.frequency i).toNat]'(waveEntry params ch.frequency i).isLt).toNat

/-- `PulseTick(ch, buf, N)` (R171): `none` when the channel is not playing, and nothing changes (R161); else the channel
after steps 1 to 3 and the samples it defines, or the fault of R172. The tail's anchor is `currentVolume` (R169). -/
def pulseTick (ch : PulseChannel) (N : Nat) : Except Fault (Option (PulseChannel × List Sample)) :=
  if ch.playing then
    if pulseWaveLength ch.frequency = 0 then .error .zeroWaveLength
    else
      .ok (some (ch.advance,
        renderSamples (pulsePattern ch.advance) (pulseWaveLength ch.frequency) ch.advance.currentVolume.toNat N))
  else .ok none

/-- `WaveTick(W, buf, N)` (R189). The tail's anchor is the last sample of the pattern (R187); `dacPower` is not read
(R181). -/
def waveTick (params : Params) (ch : WaveChannel) (N : Nat) : Except Fault (Option (WaveChannel × List Sample)) :=
  if ch.playing then
    if waveWaveLength ch.frequency = 0 then .error .zeroWaveLength
    else
      .ok (some (ch.advance,
        renderSamples (wavePattern params ch.advance) (waveWaveLength ch.frequency)
          (wavePattern params ch.advance (waveWaveLength ch.frequency - 1)) N))
  else .ok none

/-! ### Buffers and mixing (R202 to R205) -/

/-- The form of a buffer: exactly `F` samples (R51, R52). -/
def Buffer.wf (params : Params) (b : Buffer) : Bool := decide (b.length = params.frameSampleCount)

/-- `count` unspecified samples from index `start` on: free values (R52, R173, R222; log entry 5). -/
def freeSamples (draw start count : Nat) : List Sample :=
  (List.range count).map fun j => Config.freeSample draw (start + j)

/-- Add `scratch[i] div 4` into `master[i]` for `i < n`: each sample divided on its own (R204, D16). -/
def accumulate : Nat → Buffer → Buffer → Buffer
  | n + 1, m :: master, x :: scratch => BitVec.ofNat 8 (m.toNat + x.toNat / 4) :: accumulate n master scratch
  | _, master, _ => master

/-- `MST[i] <- 0` for every `i` below `F` (R202). -/
def State.zeroMaster (s : State) : State := { s with mst := List.replicate s.params.frameSampleCount 0 }

/-- What an enabled channel tick does to the buffers (R204): its `n` samples stand in the scratch buffer, the entries
from `n` on are unspecified (R173, R191), and the master buffer takes a quarter of each. That the `n` samples stay in
the scratch buffer between ticks is log entry 15. -/
def State.mixChannel (s : State) (n : Nat) (samples : List Sample) : State :=
  { s with
    scr := samples ++ freeSamples s.freeDraws n (s.params.frameSampleCount - n)
    mst := accumulate n s.mst (samples ++ freeSamples s.freeDraws n (s.params.frameSampleCount - n))
    freeDraws := s.freeDraws + 1 }

/-- The mixer's call of `P1`'s tick and, if it is enabled, its accumulation (R203, R204). -/
def tickP1 (n : Nat) (s : State) : Host.Outcome State Fault Refusal :=
  match pulseTick s.p1 n with
  | .error r => .fault r
  | .ok none => .next s
  | .ok (some (ch, samples)) => .next ((s.setP1 ch).mixChannel n samples)

/-- The mixer's call of `P2`'s tick (R203, R204). -/
def tickP2 (n : Nat) (s : State) : Host.Outcome State Fault Refusal :=
  match pulseTick s.p2 n with
  | .error r => .fault r
  | .ok none => .next s
  | .ok (some (ch, samples)) => .next ((s.setP2 ch).mixChannel n samples)

/-- The mixer's call of `W`'s tick (R203, R204). -/
def tickW (n : Nat) (s : State) : Host.Outcome State Fault Refusal :=
  match waveTick s.params s.w n with
  | .error r => .fault r
  | .ok none => .next s
  | .ok (some (ch, samples)) => .next ((s.setW ch).mixChannel n samples)

/-! ### The sink (R201, R205, R245 to R248) -/

/-- `SinkCap()`: the sink's answer at this TICK, `none` if it is negative (R201, R246). Where the state lists no answer
the answer is a free value (log entry 4). -/
def sinkCapacity (s : State) : Option Nat :=
  match s.sink.answers with
  | [] => some (Config.freeCapacity s.freeDraws)
  | Int.ofNat cap :: _ => some cap
  | Int.negSucc _ :: _ => none

/-- The query takes the answer from the list, or counts the free value drawn. -/
def State.consumeAnswer (s : State) : State :=
  match s.sink.answers with
  | [] => { s with freeDraws := s.freeDraws + 1 }
  | _ :: rest => { s with sink := { s.sink with answers := rest } }

/-- `SinkWrite(MST, n)`: the block `MST[0..n)` joins the output history (R205, R247). -/
def State.sinkWrite (s : State) (n : Nat) : State := { s with out := s.out ++ [s.mst.take n] }

/-- The mixer tick for `n` samples: zero the master, tick `P1`, `P2`, `W` in that order, write the block (R206, D2). A
fault in a channel tick is a fault of the whole command, and nothing is written (R211). -/
def mixerTick (n : Nat) (s : State) : Host.Outcome State Fault Refusal :=
  andThen (tickP1 n s.zeroMaster) fun s1 =>
    andThen (tickP2 n s1) fun s2 =>
      andThen (tickW n s2) fun s3 => .next ((s3.sinkWrite n).respond .ok)

/-! ### RESET and the command port -/

/-- Every channel field and wave-table entry to its default (R221); both buffers become unspecified (R222). -/
def State.resetChannels (s : State) : State :=
  { s with
    p1 := PulseChannel.reset
    p2 := PulseChannel.reset
    w := WaveChannel.reset
    mst := freeSamples s.freeDraws 0 s.params.frameSampleCount
    scr := freeSamples (s.freeDraws + 1) 0 s.params.frameSampleCount
    freeDraws := s.freeDraws + 2 }

/-- Take the next command from the port (R33, R93). -/
def fetchCommand (s : State) : Option (CommandWord × State) :=
  match s.port with
  | [] => none
  | word :: rest => some (word, { s with port := rest })

end Sys2Proof.Machine
end

