-- ==== Sys2Proof/Machine/Mixer.lean ====
section
/-! DEFINITION. The commands TICK (R200 to R211) and RESET (R220 to R223). -/

namespace Sys2Proof.Machine

/-- `TICK` (R206): refused while the sink is closed (R234) and when the sink answers a negative capacity (R246); else the
mixer tick for `n = min(cap, F)` samples (R201). -/
def execTick (s : State) : Host.Outcome State Fault Refusal :=
  if s.sink.isOpen then
    match sinkCapacity s with
    | some cap => mixerTick (min cap s.params.frameSampleCount) s.consumeAnswer
    | none => .refused .negativeCapacity
  else .refused .sinkClosed

/-- `RESET` (R221, R222): the sink, `OUT` and the parameters are left alone. -/
def execReset (s : State) : Host.Outcome State Fault Refusal :=
  .next (s.resetChannels.respond .ok)

end Sys2Proof.Machine
end

