-- ==== Sys2Proof/Machine/PulseWrites.lean ====
section
/-! DEFINITION. The control-register writes of the two pulse channels (R130 to R136). Each answers `OK` for every byte. -/

namespace Sys2Proof.Machine

/-- `WRC P1,0`: a no-op for every value; the reload does not run (R131, R122). -/
def execWrcP1_0 (_value : Byte) (s : State) : Host.Outcome State Fault Refusal :=
  .next (s.respond .ok)

/-- `WRC P1,1`: duty and length load (R132). -/
def execWrcP1_1 (value : Byte) (s : State) : Host.Outcome State Fault Refusal :=
  .next ((s.setP1 (s.p1.writeDutyLength value)).respond .ok)

/-- `WRC P1,2`: volume and envelope (R133). -/
def execWrcP1_2 (value : Byte) (s : State) : Host.Outcome State Fault Refusal :=
  .next ((s.setP1 (s.p1.writeVolumeEnvelope value)).respond .ok)

/-- `WRC P1,3`: frequency low byte (R134). -/
def execWrcP1_3 (value : Byte) (s : State) : Host.Outcome State Fault Refusal :=
  .next ((s.setP1 (s.p1.writeFrequencyLow value)).respond .ok)

/-- `WRC P1,4`: trigger, length enable, frequency high bits (R135). -/
def execWrcP1_4 (value : Byte) (s : State) : Host.Outcome State Fault Refusal :=
  .next ((s.setP1 (s.p1.writeTrigger value)).respond .ok)

/-- `WRC P2,0`: a no-op for every value; the reload does not run (R131, R122). -/
def execWrcP2_0 (_value : Byte) (s : State) : Host.Outcome State Fault Refusal :=
  .next (s.respond .ok)

/-- `WRC P2,1`: duty and length load (R132). -/
def execWrcP2_1 (value : Byte) (s : State) : Host.Outcome State Fault Refusal :=
  .next ((s.setP2 (s.p2.writeDutyLength value)).respond .ok)

/-- `WRC P2,2`: volume and envelope (R133). -/
def execWrcP2_2 (value : Byte) (s : State) : Host.Outcome State Fault Refusal :=
  .next ((s.setP2 (s.p2.writeVolumeEnvelope value)).respond .ok)

/-- `WRC P2,3`: frequency low byte (R134). -/
def execWrcP2_3 (value : Byte) (s : State) : Host.Outcome State Fault Refusal :=
  .next ((s.setP2 (s.p2.writeFrequencyLow value)).respond .ok)

/-- `WRC P2,4`: trigger, length enable, frequency high bits (R135). -/
def execWrcP2_4 (value : Byte) (s : State) : Host.Outcome State Fault Refusal :=
  .next ((s.setP2 (s.p2.writeTrigger value)).respond .ok)

end Sys2Proof.Machine
end

