-- ==== Sys2Proof/Machine/WaveWrites.lean ====
section
/-! DEFINITION. The control-register writes of the wave channel (R137 to R142) and the wave-table byte write
(R143, R144). -/

namespace Sys2Proof.Machine

/-- `WRC W,0`: DAC power (R137). -/
def execWrcW_0 (value : Byte) (s : State) : Host.Outcome State Fault Refusal :=
  .next ((s.setW (s.w.writeDacPower value)).respond .ok)

/-- `WRC W,1`: length load (R138). -/
def execWrcW_1 (value : Byte) (s : State) : Host.Outcome State Fault Refusal :=
  .next ((s.setW (s.w.writeLength value)).respond .ok)

/-- `WRC W,2`: volume code (R139). -/
def execWrcW_2 (value : Byte) (s : State) : Host.Outcome State Fault Refusal :=
  .next ((s.setW (s.w.writeVolumeCode value)).respond .ok)

/-- `WRC W,3`: frequency low byte (R140). -/
def execWrcW_3 (value : Byte) (s : State) : Host.Outcome State Fault Refusal :=
  .next ((s.setW (s.w.writeFrequencyLow value)).respond .ok)

/-- `WRC W,4`: trigger, length enable, frequency high bits (R141). -/
def execWrcW_4 (value : Byte) (s : State) : Host.Outcome State Fault Refusal :=
  .next ((s.setW (s.w.writeTrigger value)).respond .ok)

/-- `WWT`: two table entries for an index of at most 15 (R143), `INVALID_ARGUMENT` and no change above (R144). -/
def execWwt (widx : BitVec 6) (value : Byte) (s : State) : Host.Outcome State Fault Refusal :=
  if widx.toNat ≤ 15 then .next ((s.setW (s.w.writeTableByte widx.toNat value)).respond .ok)
  else .next (raiseInvalidArgument widx s)

end Sys2Proof.Machine
end

