-- ==== Sys2Proof/Machine/Dispatch.lean ====
section
/-! DEFINITION. One arm per command, each one call of its meaning. -/

namespace Sys2Proof.Machine

def exec (i : Instr) (s : State) : Host.Outcome State Fault Refusal :=
  match i with
  | .wrcP1_0 value => Sys2Proof.Machine.execWrcP1_0 value s
  | .wrcP1_1 value => Sys2Proof.Machine.execWrcP1_1 value s
  | .wrcP1_2 value => Sys2Proof.Machine.execWrcP1_2 value s
  | .wrcP1_3 value => Sys2Proof.Machine.execWrcP1_3 value s
  | .wrcP1_4 value => Sys2Proof.Machine.execWrcP1_4 value s
  | .wrcP2_0 value => Sys2Proof.Machine.execWrcP2_0 value s
  | .wrcP2_1 value => Sys2Proof.Machine.execWrcP2_1 value s
  | .wrcP2_2 value => Sys2Proof.Machine.execWrcP2_2 value s
  | .wrcP2_3 value => Sys2Proof.Machine.execWrcP2_3 value s
  | .wrcP2_4 value => Sys2Proof.Machine.execWrcP2_4 value s
  | .wrcW_0 value => Sys2Proof.Machine.execWrcW_0 value s
  | .wrcW_1 value => Sys2Proof.Machine.execWrcW_1 value s
  | .wrcW_2 value => Sys2Proof.Machine.execWrcW_2 value s
  | .wrcW_3 value => Sys2Proof.Machine.execWrcW_3 value s
  | .wrcW_4 value => Sys2Proof.Machine.execWrcW_4 value s
  | .wwt widx value => Sys2Proof.Machine.execWwt widx value s
  | .tick => Sys2Proof.Machine.execTick s
  | .reset => Sys2Proof.Machine.execReset s

end Sys2Proof.Machine
end

