-- ==== Sys2Proof/Machine/Step.lean ====
section
/-! DEFINITION. One step: take the next command from the port, decode it, run it (R33, R87, R93). -/

namespace Sys2Proof.Machine

/-- One step. A word that spells no command is refused (R107, R237). With no command at the port the block does nothing
(R251, R261; log entry 1). -/
def step (s : State) : Host.Outcome State Fault Refusal :=
  match fetchCommand s with
  | none => .next s
  | some (word, s') =>
    match decode word with
    | some i => exec i s'
    | none => .refused (.reservedCommand word)

/-- The state with a command word, numbered as the opcode table numbers it, next at the command port. -/
def State.withFetchWord (s : State) (nbits w : Nat) : State := { s with port := tableWord nbits w :: s.port }

end Sys2Proof.Machine
end

