-- ==== Sys2Proof/Machine/StepIndex.lean ====
section
/-! DEFINITION. The two values of the parameter `StepIndex` the spec lists beside exact arithmetic: the points
(frequency, sample index) at which a binary64 or a binary32 evaluation of the wave entry index differs from the exact
value, each with the entry that evaluation gives (U7). Binary floating point gives the exact value everywhere else, and
everywhere on the pulse channels (R19). An instance takes one of them by its `Params.stepIndex`; log entry 3. -/

namespace Sys2Proof.Machine

/-- The 55 points of binary64 (U7), part 1. -/
def binary64StepIndexPart1 : List (BitVec 11 × Nat × BitVec 5) :=
  [(136, 1195, 29), (160, 590, 14), (160, 1180, 29), (184, 1165, 29), (208, 575, 14),
   (208, 1150, 29), (232, 1135, 29), (256, 560, 14), (256, 1120, 29), (280, 1105, 29),
   (304, 545, 14), (304, 1090, 29), (328, 1075, 29), (352, 530, 14), (352, 954, 26),
   (352, 1060, 29), (376, 1045, 29), (400, 515, 14), (400, 927, 26), (400, 1030, 29)]

/-- The 55 points of binary64 (U7), part 2. -/
def binary64StepIndexPart2 : List (BitVec 11 × Nat × BitVec 5) :=
  [(424, 1015, 29), (448, 500, 14), (448, 900, 26), (448, 1000, 29), (472, 985, 29),
   (496, 485, 14), (496, 873, 26), (496, 970, 29), (1104, 295, 14), (1104, 590, 29),
   (1128, 575, 29), (1152, 280, 14), (1152, 560, 29), (1176, 545, 29), (1200, 265, 14),
   (1200, 477, 26), (1200, 530, 29), (1224, 515, 29), (1248, 250, 14), (1248, 450, 26)]

/-- The 55 points of binary64 (U7), part 3. -/
def binary64StepIndexPart3 : List (BitVec 11 × Nat × BitVec 5) :=
  [(1248, 500, 29), (1272, 485, 29), (1576, 295, 29), (1600, 140, 14), (1600, 280, 29),
   (1624, 265, 29), (1648, 125, 14), (1648, 225, 26), (1648, 250, 29), (1824, 70, 14),
   (1824, 140, 29), (1848, 125, 29), (1936, 35, 14), (1936, 70, 29), (1992, 35, 29)]

/-- The 55 points of binary64 (U7): a value of the parameter `StepIndex`. -/
def binary64StepIndex : List (BitVec 11 × Nat × BitVec 5) :=
  binary64StepIndexPart1 ++ binary64StepIndexPart2 ++ binary64StepIndexPart3

/-- The 54 points of binary32 (U7), part 1. -/
def binary32StepIndexPart1 : List (BitVec 11 × Nat × BitVec 5) :=
  [(144, 595, 14), (144, 1190, 29), (168, 1175, 29), (192, 580, 14), (192, 1160, 29),
   (216, 1145, 29), (240, 565, 14), (240, 1130, 29), (264, 1115, 29), (288, 550, 14),
   (288, 1100, 29), (312, 1085, 29), (336, 535, 14), (336, 963, 26), (336, 1070, 29),
   (360, 1055, 29), (384, 520, 14), (384, 936, 26), (384, 1040, 29), (408, 1025, 29)]

/-- The 54 points of binary32 (U7), part 2. -/
def binary32StepIndexPart2 : List (BitVec 11 × Nat × BitVec 5) :=
  [(432, 505, 14), (432, 909, 26), (432, 1010, 29), (456, 995, 29), (480, 490, 14),
   (480, 882, 26), (480, 980, 29), (504, 965, 29), (1096, 595, 29), (1120, 290, 14),
   (1120, 580, 29), (1144, 565, 29), (1168, 275, 14), (1168, 550, 29), (1192, 535, 29),
   (1216, 260, 14), (1216, 468, 26), (1216, 520, 29), (1240, 505, 29), (1264, 245, 14)]

/-- The 54 points of binary32 (U7), part 3. -/
def binary32StepIndexPart3 : List (BitVec 11 × Nat × BitVec 5) :=
  [(1264, 441, 26), (1264, 490, 29), (1584, 145, 14), (1584, 290, 29), (1608, 275, 29),
   (1632, 130, 14), (1632, 234, 26), (1632, 260, 29), (1656, 245, 29), (1816, 145, 29),
   (1840, 65, 14), (1840, 117, 26), (1840, 130, 29), (1944, 65, 29)]

/-- The 54 points of binary32 (U7): a value of the parameter `StepIndex`. -/
def binary32StepIndex : List (BitVec 11 × Nat × BitVec 5) :=
  binary32StepIndexPart1 ++ binary32StepIndexPart2 ++ binary32StepIndexPart3

end Sys2Proof.Machine
end

