-- ==== Sys2Proof/Safety.lean ====
section
/-! DEFINITION. What a safe run is (R236, R237, R264) and the invariant every step keeps (R36, R48, R51, R52, R208). -/

namespace Sys2Proof.Machine

/-- A pulse channel's tick does not fault: it is not playing, or its `waveLength` is not 0 (R172, R264). -/
abbrev PulseChannel.renders (ch : PulseChannel) : Prop := ch.playing = true → ch.frequency.toNat ≤ 2045

/-- The wave channel's tick does not fault (R190, R264). -/
abbrev WaveChannel.renders (ch : WaveChannel) : Prop := ch.playing = true → ch.frequency.toNat ≤ 2046

/-- No channel's tick faults. -/
abbrev State.renders (s : State) : Prop := s.p1.renders ∧ s.p2.renders ∧ s.w.renders

/-- The sink is open and answers `cap` at the next TICK (R234, R246). -/
abbrev State.sinkAnswers (s : State) (cap : Nat) : Prop := s.sink.isOpen = true ∧ sinkCapacity s = some cap

/-- The range of a pulse channel's length counter, with what keeps it there (R36): the counter is not negative while
the channel is playing with length enabled. -/
abbrev PulseChannel.Inv (ch : PulseChannel) : Prop :=
  -4 ≤ ch.lengthCounter ∧ ch.lengthCounter ≤ 63 ∧
    (ch.lengthEnabled = true → ch.playing = true → 0 ≤ ch.lengthCounter)

/-- The range of the wave channel's length counter (R36). -/
abbrev WaveChannel.Inv (ch : WaveChannel) : Prop :=
  -4 ≤ ch.lengthCounter ∧ ch.lengthCounter ≤ 255 ∧
    (ch.lengthEnabled = true → ch.playing = true → 0 ≤ ch.lengthCounter)

/-- A block in the output history: at most `F` samples, each 0 to 9 (R201, R208). -/
abbrev blockInRange (params : Params) (block : List Sample) : Prop :=
  block.length ≤ params.frameSampleCount ∧ ∀ x ∈ block, x.toNat ≤ 9

/-- The invariant of the machine. The ranges of the fields of R48 hold by their types. -/
abbrev State.Inv (s : State) : Prop :=
  s.p1.Inv ∧ s.p2.Inv ∧ s.w.Inv ∧ Buffer.wf s.params s.mst = true ∧ Buffer.wf s.params s.scr = true ∧
    ∀ block ∈ s.out, blockInRange s.params block

end Sys2Proof.Machine
end

