-- ==== Sys2Proof/Certificates/Slice0/Obligations.lean ====
section
/-! DEFINITION. The statements about the model. The first part writes the spec's formulas out a second time, from the
rules and not over the model's own operations, so that a statement compares the two. -/

namespace Sys2Proof.Rules

open Sys2Proof.Machine

/-! ### The rules' formulas, written out -/

/-- Commands one after the other, from a state; a fault or a refusal ends the run. -/
def runAll (commands : List Instr) (s : State) : Host.Outcome State Fault Refusal :=
  commands.foldl (fun o i => andThen o (exec i)) (.next s)

/-- A pulse channel after a tick: steps 0 to 3 of R171. -/
def pulseAfterTick (ch : PulseChannel) : PulseChannel :=
  if ch.playing = true then
    { ch with
      ticks := ch.ticks + 1
      lengthCounter := if ch.lengthEnabled = true then ch.lengthCounter - 4 else ch.lengthCounter
      playing := decide ¬(ch.lengthEnabled = true ∧ ch.lengthCounter ≤ 4)
      currentVolume :=
        if ch.envelopePeriod.toNat ≠ 0 ∧ (ch.ticks + 1) % ch.envelopePeriod.toNat = 0 then
          BitVec.ofNat 4
            (if ch.envelopeAdd = true then min 15 (ch.currentVolume.toNat + 3) else ch.currentVolume.toNat - 3)
        else ch.currentVolume }
  else ch

/-- The wave channel after a tick: R181, R182. -/
def waveAfterTick (ch : WaveChannel) : WaveChannel :=
  if ch.playing = true then
    { ch with
      ticks := ch.ticks + 1
      lengthCounter := if ch.lengthEnabled = true then ch.lengthCounter - 4 else ch.lengthCounter
      playing := decide ¬(ch.lengthEnabled = true ∧ ch.lengthCounter ≤ 4) }
  else ch

/-- The first and the last high step of a duty pattern: the table of R165. -/
def highSteps (duty : BitVec 2) : Nat × Nat :=
  if duty.toNat = 0 then (2, 2) else if duty.toNat = 1 then (2, 3) else if duty.toNat = 2 then (2, 5) else (1, 6)

/-- `buf[i]` of `PulseTick` for `N` samples, `0 ≤ i < N`, of a channel after its steps 1 to 3 (R165 to R171). -/
def pulseSample (ch : PulseChannel) (N i : Nat) : Nat :=
  let n := 2048 - ch.frequency.toNat
  let L := n / 3
  let V := ch.currentVolume.toNat
  let written := max 1 (N / L) * L
  if i < written then
    let step := 24 * (i % L) / n
    if (highSteps ch.duty).1 ≤ step ∧ step ≤ (highSteps ch.duty).2 then V else 0
  else (N - i) * V / (N - written)

/-- `Vol(TBL[e])` (R184). An entry index above 31 names no entry; R92 rules it out for exact indexes. -/
def waveAmplitude (ch : WaveChannel) (e : Nat) : Nat :=
  match ch.volumeCode.toNat with
  | 0 => 0
  | 1 => (ch.table.toList.getD e 0).toNat
  | 2 => (ch.table.toList.getD e 0).toNat / 2
  | _ => (ch.table.toList.getD e 0).toNat / 4

/-- `buf[i]` of `WaveTick` for `N` samples, `0 ≤ i < N`, of a channel after its steps 1 and 2 (R183 to R189), with the
entry index of a sample given by `entry`. -/
def waveSampleWith (entry : Nat → Nat) (ch : WaveChannel) (N i : Nat) : Nat :=
  let n := 2048 - ch.frequency.toNat
  let L := 2 * n / 3
  let written := max 1 (N / L) * L
  if i < written then waveAmplitude ch (entry (i % L))
  else (N - i) * waveAmplitude ch (entry (L - 1)) / (N - written)

/-- The exact entry index `(48 × i) div n` (R19). -/
def exactEntry (ch : WaveChannel) (i : Nat) : Nat := 48 * i / (2048 - ch.frequency.toNat)

/-- The entry index of an instance: what its `StepIndex` lists for the point, else the exact one (R11, U7). -/
def instanceEntry (params : Params) (ch : WaveChannel) (i : Nat) : Nat :=
  match params.stepIndex.filter fun point => decide (point.1 = ch.frequency ∧ point.2.1 = i) with
  | point :: _ => point.2.2.toNat
  | [] => exactEntry ch i

/-- The samples of the three channels at index `i` of a TICK for `n` samples, each a quarter and 0 for a channel that was
not playing at its start, summed: the closed form of R206. -/
def mixedSample (s : State) (n i : Nat) : Nat :=
  (if s.p1.playing = true then pulseSample (pulseAfterTick s.p1) n i / 4 else 0) +
    (if s.p2.playing = true then pulseSample (pulseAfterTick s.p2) n i / 4 else 0) +
    (if s.w.playing = true then
      waveSampleWith (instanceEntry s.params s.w) (waveAfterTick s.w) n i / 4 else 0)

/-- The block of a TICK for `n` samples (R206). -/
def mixedBlock (s : State) (n : Nat) : List Sample := (List.range n).map fun i => BitVec.ofNat 8 (mixedSample s n i)

/-- A list of numbers as samples. -/
def asSamples (f : Nat → Nat) (n : Nat) : List Sample := (List.range n).map fun i => BitVec.ofNat 8 (f i)

/-- Everything but the two buffers and the model's draw counter agrees. -/
def sameObservables (s t : State) : Prop :=
  s.p1 = t.p1 ∧ s.p2 = t.p2 ∧ s.w = t.w ∧ s.out = t.out ∧ s.responses = t.responses ∧ s.params = t.params ∧
    s.sink = t.sink ∧ s.port = t.port

/-- Two outcomes are the same stop, or two next states in relation `rel`. -/
def outcomesAgree (rel : State → State → Prop) (a b : Host.Outcome State Fault Refusal) : Prop :=
  match a, b with
  | .next s, .next t => rel s t
  | .fault r, .fault r' => r = r'
  | .refused r, .refused r' => r = r'
  | _, _ => False

/-- The response of a command (R239). -/
def responseOf : Instr → Response
  | .wwt widx _ => if 16 ≤ widx.toNat then .invalidArgument widx else .ok
  | _ => .ok

/-- The writes that set fields of `P1`: index 1 to 4 (R130 to R135). -/
def writesP1 : Instr → Bool
  | .wrcP1_1 _ | .wrcP1_2 _ | .wrcP1_3 _ | .wrcP1_4 _ => true
  | _ => false

/-- The writes that set fields of `P2`. -/
def writesP2 : Instr → Bool
  | .wrcP2_1 _ | .wrcP2_2 _ | .wrcP2_3 _ | .wrcP2_4 _ => true
  | _ => false

/-- The control-register writes of `W`: index 0 to 4 (R137 to R141). -/
def writesW : Instr → Bool
  | .wrcW_0 _ | .wrcW_1 _ | .wrcW_2 _ | .wrcW_3 _ | .wrcW_4 _ => true
  | _ => false

/-- The fields of a pulse channel that only a register write and RESET change (first row of R61's table, with
`startingVolume`). -/
def pulseSettings (ch : PulseChannel) :
    BitVec 2 × BitVec 6 × Bool × BitVec 4 × Bool × BitVec 3 × BitVec 11 :=
  (ch.duty, ch.lengthLoad, ch.lengthEnabled, ch.startingVolume, ch.envelopeAdd, ch.envelopePeriod, ch.frequency)

/-- The fields of the wave channel that only a register write and RESET change. -/
def waveSettings (ch : WaveChannel) : Bool × BitVec 8 × Bool × BitVec 2 × BitVec 11 :=
  (ch.dacPower, ch.lengthLoad, ch.lengthEnabled, ch.volumeCode, ch.frequency)

/-- The frequency, `playing` and `lengthEnabled` of a channel by its name. -/
def channelTone (s : State) : Channel → Nat × Bool × Bool
  | .p1 => (s.p1.frequency.toNat, s.p1.playing, s.p1.lengthEnabled)
  | .p2 => (s.p2.frequency.toNat, s.p2.playing, s.p2.lengthEnabled)
  | .w => (s.w.frequency.toNat, s.w.playing, s.w.lengthEnabled)

/-- A pulse channel with every field at 0 or false (R59). -/
def pulseDefaults (ch : PulseChannel) : Prop :=
  ch.duty = 0 ∧ ch.lengthLoad = 0 ∧ ch.lengthCounter = 0 ∧ ch.lengthEnabled = false ∧ ch.startingVolume = 0 ∧
    ch.currentVolume = 0 ∧ ch.envelopeAdd = false ∧ ch.envelopePeriod = 0 ∧ ch.frequency = 0 ∧
    ch.playing = false ∧ ch.ticks = 0

/-- The wave channel with every field and every table entry at 0 or false (R59). -/
def waveDefaults (ch : WaveChannel) : Prop :=
  ch.dacPower = false ∧ ch.lengthLoad = 0 ∧ ch.lengthCounter = 0 ∧ ch.lengthEnabled = false ∧ ch.volumeCode = 0 ∧
    ch.frequency = 0 ∧ ch.playing = false ∧ ch.ticks = 0 ∧ ∀ (e : Nat) (h : e < 32), ch.table[e] = 0

end Sys2Proof.Rules

open Sys2Proof Sys2Proof.Machine Sys2Proof.Rules

/-! ### The command word -/

/-- Words written out bit by bit from R101 to R105, one or more per family, decode to the commands they stand for. -/
def Obligations.WrittenOutWordsDecode : Prop :=
  decode 0b0000000111111111#16 = some (.wrcP1_1 0xFF) ∧
  decode 0b0000010011000110#16 = some (.wrcP1_4 0xC6) ∧
  decode 0b0001000101000001#16 = some (.wrcP2_1 0x41) ∧
  decode 0b0010001001100000#16 = some (.wrcW_2 0x60) ∧
  decode 0b0100001110101011#16 = some (.wwt 3 0xAB) ∧
  decode 0b0101000011001101#16 = some (.wwt 16 0xCD) ∧
  decode 0b1000000000000000#16 = some .tick ∧
  decode 0b1100000000000000#16 = some .reset

/-- Decoding the word of a command gives the command back, with every operand at every value (R101 to R106, R120). -/
def Obligations.EncodedCommandsDecodeToThemselves : Prop := ∀ i : Instr, decode (encode i) = some i

/-- Each word has one meaning: the word of a decoded command is the word it was decoded from. -/
def Obligations.DecodedWordsEncodeBack : Prop := ∀ (word : CommandWord) (i : Instr), decode word = some i → encode i = word

/-- The decoder rejects exactly the words of R107: WRC with channel code 3, with bit 11 set or with index 5 to 7, and
TICK or RESET with any of bits 13:0 set. -/
def Obligations.ReservedWordsAreTheSpecsList : Prop :=
  ∀ word : CommandWord,
    decode word = none ↔
      (word.toNat / 2 ^ 14 = 0 ∧
        (word.toNat / 2 ^ 12 % 4 = 3 ∨ word.toNat / 2 ^ 11 % 2 = 1 ∨ 5 ≤ word.toNat / 2 ^ 8 % 8)) ∨
      (2 ≤ word.toNat / 2 ^ 14 ∧ word.toNat % 2 ^ 14 ≠ 0)

/-- The opcode map of R121 is disjoint and decides the decoder: two rows that share a word are one row, a word decodes
exactly when it selects a row, and the command it decodes to has that row. -/
def Obligations.OpcodeRowsAreDisjointAndComplete : Prop :=
  (∀ (word : CommandWord) (i j : Instr), word &&& (opcodeRow i).2 = (opcodeRow i).1 →
    word &&& (opcodeRow j).2 = (opcodeRow j).1 → opcodeRow i = opcodeRow j) ∧
  (∀ (word : CommandWord) (i : Instr), word &&& (opcodeRow i).2 = (opcodeRow i).1 →
    ∃ j, decode word = some j ∧ opcodeRow j = opcodeRow i) ∧
  (∀ (word : CommandWord) (i : Instr), decode word = some i → word &&& (opcodeRow i).2 = (opcodeRow i).1)

/-- The two writes of `TRIG <ch>, <f>, <le>` (R124) leave the channel playing at frequency `f` with the length bit `le`,
from any state. -/
def Obligations.TrigStartsTheChannelAtItsFrequency : Prop :=
  ∀ (ch : Channel) (f le : Nat), f ≤ 2047 → le ≤ 1 →
    ∃ low high, assemble (.trig ch f le) = some [low, high] ∧
      ∀ s : State, ∃ t, runAll [low, high] s = .next t ∧ channelTone t ch = (f, true, decide (le = 1))

/-- The sixteen writes of `WAVE16` (R124) fill the wave table: byte `j` gives entries `2j` and `2j+1`. -/
def Obligations.Wave16FillsTheTable : Prop :=
  ∀ bytes : List Nat, bytes.length = 16 → (∀ b ∈ bytes, b ≤ 255) →
    ∃ commands, assemble (.wave16 bytes) = some commands ∧ commands.length = 16 ∧
      ∀ s : State, ∃ t, runAll commands s = .next t ∧
        ∀ (j : Nat) (h : j < 16), (t.w.table[2 * j]).toNat = bytes.getD j 0 / 16 ∧
          (t.w.table[2 * j + 1]).toNat = bytes.getD j 0 % 16

/-! ### One step -/

/-- A step takes the next command from the port and runs it (R33, R93). -/
def Obligations.StepRunsTheDecodedCommand : Prop :=
  ∀ (s : State) (word : CommandWord) (rest : List CommandWord) (i : Instr),
    s.port = word :: rest → decode word = some i → step s = exec i { s with port := rest }

/-- A word that spells no command is refused, whatever the state (R107, R237). -/
def Obligations.StepRefusesReservedWords : Prop :=
  ∀ (s : State) (word : CommandWord) (rest : List CommandWord),
    s.port = word :: rest → decode word = none → step s = .refused (.reservedCommand word)

/-- With no command at the port the block does nothing: the model's choice for a step of a waiting block, log entry 1
("between commands the block does nothing", R251). -/
def Obligations.StepWithoutACommandChangesNothing : Prop := ∀ s : State, s.port = [] → step s = .next s

/-! ### Register writes: the result, and with it the frame -/

/-- Pulse index 0 changes nothing but the response, for every value, length enabled or not (R131). -/
def Obligations.PulseIndexZeroIsANoOp : Prop :=
  ∀ (value : Byte) (s : State),
    exec (.wrcP1_0 value) s = .next { s with responses := s.responses ++ [.ok] } ∧
    exec (.wrcP2_0 value) s = .next { s with responses := s.responses ++ [.ok] }

/-- Pulse index 1 sets `duty` and `lengthLoad`, then reloads; nothing else changes (R132). -/
def Obligations.PulseDutyLengthWrite : Prop :=
  ∀ (value : Byte) (s : State),
    exec (.wrcP1_1 value) s = .next { s with
      p1 := { s.p1 with
        duty := BitVec.ofNat 2 (value.toNat / 64)
        lengthLoad := BitVec.ofNat 6 (value.toNat % 64)
        lengthCounter := if s.p1.lengthEnabled = true then (value.toNat % 64 : Nat) else s.p1.lengthCounter }
      responses := s.responses ++ [.ok] } ∧
    exec (.wrcP2_1 value) s = .next { s with
      p2 := { s.p2 with
        duty := BitVec.ofNat 2 (value.toNat / 64)
        lengthLoad := BitVec.ofNat 6 (value.toNat % 64)
        lengthCounter := if s.p2.lengthEnabled = true then (value.toNat % 64 : Nat) else s.p2.lengthCounter }
      responses := s.responses ++ [.ok] }

/-- Pulse index 2 sets both volumes and the envelope, then reloads; nothing else changes (R133). -/
def Obligations.PulseVolumeEnvelopeWrite : Prop :=
  ∀ (value : Byte) (s : State),
    exec (.wrcP1_2 value) s = .next { s with
      p1 := { s.p1 with
        startingVolume := BitVec.ofNat 4 (value.toNat / 16)
        currentVolume := BitVec.ofNat 4 (value.toNat / 16)
        envelopeAdd := decide (value.toNat / 8 % 2 = 1)
        envelopePeriod := BitVec.ofNat 3 (value.toNat % 8)
        lengthCounter := if s.p1.lengthEnabled = true then s.p1.lengthLoad.toNat else s.p1.lengthCounter }
      responses := s.responses ++ [.ok] } ∧
    exec (.wrcP2_2 value) s = .next { s with
      p2 := { s.p2 with
        startingVolume := BitVec.ofNat 4 (value.toNat / 16)
        currentVolume := BitVec.ofNat 4 (value.toNat / 16)
        envelopeAdd := decide (value.toNat / 8 % 2 = 1)
        envelopePeriod := BitVec.ofNat 3 (value.toNat % 8)
        lengthCounter := if s.p2.lengthEnabled = true then s.p2.lengthLoad.toNat else s.p2.lengthCounter }
      responses := s.responses ++ [.ok] }

/-- Pulse index 3 replaces the low 8 bits of the frequency, then reloads; nothing else changes (R134). -/
def Obligations.PulseFrequencyLowWrite : Prop :=
  ∀ (value : Byte) (s : State),
    exec (.wrcP1_3 value) s = .next { s with
      p1 := { s.p1 with
        frequency := BitVec.ofNat 11 (s.p1.frequency.toNat / 256 * 256 + value.toNat)
        lengthCounter := if s.p1.lengthEnabled = true then s.p1.lengthLoad.toNat else s.p1.lengthCounter }
      responses := s.responses ++ [.ok] } ∧
    exec (.wrcP2_3 value) s = .next { s with
      p2 := { s.p2 with
        frequency := BitVec.ofNat 11 (s.p2.frequency.toNat / 256 * 256 + value.toNat)
        lengthCounter := if s.p2.lengthEnabled = true then s.p2.lengthLoad.toNat else s.p2.lengthCounter }
      responses := s.responses ++ [.ok] }

/-- Pulse index 4 assigns `playing`, `lengthEnabled` and the high 3 bits of the frequency, then reloads by the
`lengthEnabled` just written; nothing else changes (R135; that the trigger does nothing more is D19). -/
def Obligations.PulseTriggerWrite : Prop :=
  ∀ (value : Byte) (s : State),
    exec (.wrcP1_4 value) s = .next { s with
      p1 := { s.p1 with
        playing := decide (value.toNat / 128 = 1)
        lengthEnabled := decide (value.toNat / 64 % 2 = 1)
        frequency := BitVec.ofNat 11 (value.toNat % 8 * 256 + s.p1.frequency.toNat % 256)
        lengthCounter := if value.toNat / 64 % 2 = 1 then s.p1.lengthLoad.toNat else s.p1.lengthCounter }
      responses := s.responses ++ [.ok] } ∧
    exec (.wrcP2_4 value) s = .next { s with
      p2 := { s.p2 with
        playing := decide (value.toNat / 128 = 1)
        lengthEnabled := decide (value.toNat / 64 % 2 = 1)
        frequency := BitVec.ofNat 11 (value.toNat % 8 * 256 + s.p2.frequency.toNat % 256)
        lengthCounter := if value.toNat / 64 % 2 = 1 then s.p2.lengthLoad.toNat else s.p2.lengthCounter }
      responses := s.responses ++ [.ok] }

/-- Wave index 0 sets `dacPower`, then reloads; nothing else changes (R137; the reload of the wave channel is D5). -/
def Obligations.WaveDacPowerWrite : Prop :=
  ∀ (value : Byte) (s : State),
    exec (.wrcW_0 value) s = .next { s with
      w := { s.w with
        dacPower := decide (value.toNat / 128 = 1)
        lengthCounter := if s.w.lengthEnabled = true then s.w.lengthLoad.toNat else s.w.lengthCounter }
      responses := s.responses ++ [.ok] }

/-- Wave index 1 sets all 8 bits of `lengthLoad`, then reloads; nothing else changes (R138; D5). -/
def Obligations.WaveLengthWrite : Prop :=
  ∀ (value : Byte) (s : State),
    exec (.wrcW_1 value) s = .next { s with
      w := { s.w with
        lengthLoad := value
        lengthCounter := if s.w.lengthEnabled = true then value.toNat else s.w.lengthCounter }
      responses := s.responses ++ [.ok] }

/-- Wave index 2 sets `volumeCode` from bits 6:5, then reloads; nothing else changes (R139; D5). -/
def Obligations.WaveVolumeCodeWrite : Prop :=
  ∀ (value : Byte) (s : State),
    exec (.wrcW_2 value) s = .next { s with
      w := { s.w with
        volumeCode := BitVec.ofNat 2 (value.toNat / 32 % 4)
        lengthCounter := if s.w.lengthEnabled = true then s.w.lengthLoad.toNat else s.w.lengthCounter }
      responses := s.responses ++ [.ok] }

/-- Wave index 3 replaces the low 8 bits of the frequency, then reloads; nothing else changes (R140; D5). -/
def Obligations.WaveFrequencyLowWrite : Prop :=
  ∀ (value : Byte) (s : State),
    exec (.wrcW_3 value) s = .next { s with
      w := { s.w with
        frequency := BitVec.ofNat 11 (s.w.frequency.toNat / 256 * 256 + value.toNat)
        lengthCounter := if s.w.lengthEnabled = true then s.w.lengthLoad.toNat else s.w.lengthCounter }
      responses := s.responses ++ [.ok] }

/-- Wave index 4 assigns `playing`, `lengthEnabled` and the high 3 bits of the frequency, then reloads; nothing else
changes, the wave table included (R141; D5, D19). -/
def Obligations.WaveTriggerWrite : Prop :=
  ∀ (value : Byte) (s : State),
    exec (.wrcW_4 value) s = .next { s with
      w := { s.w with
        playing := decide (value.toNat / 128 = 1)
        lengthEnabled := decide (value.toNat / 64 % 2 = 1)
        frequency := BitVec.ofNat 11 (value.toNat % 8 * 256 + s.w.frequency.toNat % 256)
        lengthCounter := if value.toNat / 64 % 2 = 1 then s.w.lengthLoad.toNat else s.w.lengthCounter }
      responses := s.responses ++ [.ok] }

/-- A wave-table byte of index at most 15 sets entry `2 × widx` to its high nibble and `2 × widx + 1` to its low one;
every other entry, every channel field and both buffers stay, and there is no reload (R143; D5). -/
def Obligations.WaveTableByteWrite : Prop :=
  ∀ (widx : BitVec 6) (value : Byte) (s : State), widx.toNat ≤ 15 →
    ∃ table : Vector Nibble 32,
      exec (.wwt widx value) s = .next { s with w := { s.w with table }, responses := s.responses ++ [.ok] } ∧
      ∀ (e : Nat) (h : e < 32), table[e] =
        if e = 2 * widx.toNat then BitVec.ofNat 4 (value.toNat / 16)
        else if e = 2 * widx.toNat + 1 then BitVec.ofNat 4 (value.toNat % 16)
        else s.w.table[e]

/-- A wave-table byte of index 16 or more answers `INVALID_ARGUMENT` with the index, and nothing else changes (R144). -/
def Obligations.WaveTableIndexAbove15IsInvalidArgument : Prop :=
  ∀ (widx : BitVec 6) (value : Byte) (s : State), 16 ≤ widx.toNat →
    exec (.wwt widx value) s = .next { s with responses := s.responses ++ [.invalidArgument widx] }

/-- After a write to index 1 to 4 of a pulse channel the length counter is the length load, if length is enabled after
the write's own fields are set, and else what it was; index 0 never reloads (R136). -/
def Obligations.PulseWritesReloadTheLengthCounter : Prop :=
  ∀ (i : Instr) (s : State),
    (writesP1 i = true → ∃ t, exec i s = .next t ∧ t.p1.lengthCounter =
      if t.p1.lengthEnabled = true then (t.p1.lengthLoad.toNat : Int) else s.p1.lengthCounter) ∧
    (writesP2 i = true → ∃ t, exec i s = .next t ∧ t.p2.lengthCounter =
      if t.p2.lengthEnabled = true then (t.p2.lengthLoad.toNat : Int) else s.p2.lengthCounter) ∧
    (∀ value, (i = .wrcP1_0 value ∨ i = .wrcP2_0 value) → ∃ t, exec i s = .next t ∧
      t.p1.lengthCounter = s.p1.lengthCounter ∧ t.p2.lengthCounter = s.p2.lengthCounter)

/-- After a write to index 0 to 4 of the wave channel likewise (R142; D5). -/
def Obligations.WaveWritesReloadTheLengthCounter : Prop :=
  ∀ (i : Instr) (s : State), writesW i = true →
    ∃ t, exec i s = .next t ∧ t.w.lengthCounter =
      if t.w.lengthEnabled = true then (t.w.lengthLoad.toNat : Int) else s.w.lengthCounter

/-- Every command but TICK leaves the state it left before when it is issued again at once, but for the responses and,
for RESET, the unspecified buffers (R89). -/
def Obligations.RepeatedWritesAddNothing : Prop :=
  ∀ (i : Instr) (s t u : State), i ≠ .tick → exec i s = .next t → exec i t = .next u →
    u.p1 = t.p1 ∧ u.p2 = t.p2 ∧ u.w = t.w ∧ u.out = t.out ∧ (i ≠ .reset → u.mst = t.mst ∧ u.scr = t.scr)

/-- Every command but TICK completes in every state: no value of a control register, no wave-byte index and no state of
the sink stops it (R130, R234, R235). -/
def Obligations.WritesAndResetAlwaysComplete : Prop :=
  ∀ (i : Instr) (s : State), i ≠ .tick → ∃ t, exec i s = .next t

/-- No register write produces samples, calls the sink, changes `ticks` or touches a buffer: what it changes is channel
fields and its response (R146). -/
def Obligations.RegisterWritesTouchOnlyChannelFields : Prop :=
  ∀ (i : Instr) (s : State), i ≠ .tick → i ≠ .reset →
    ∃ t, exec i s = .next t ∧
      t = { s with p1 := t.p1, p2 := t.p2, w := t.w, responses := t.responses } ∧
      t.p1.ticks = s.p1.ticks ∧ t.p2.ticks = s.p2.ticks ∧ t.w.ticks = s.w.ticks

/-! ### The channel ticks -/

/-- The tick of a pulse channel that is not playing returns false and changes nothing, whatever its frequency: no field,
and no entry of the buffer it was given. A TICK leaves such a channel as it was (R161). -/
def Obligations.SilentPulseChannelsAreLeftAlone : Prop :=
  (∀ (ch : PulseChannel) (N : Nat), ch.playing = false → pulseTick ch N = .ok none) ∧
  (∀ (n : Nat) (s : State), (s.p1.playing = false → tickP1 n s = .next s) ∧
    (s.p2.playing = false → tickP2 n s = .next s)) ∧
  (∀ s t : State, exec .tick s = .next t →
    (s.p1.playing = false → t.p1 = s.p1) ∧ (s.p2.playing = false → t.p2 = s.p2))

/-- The wave channel likewise, its table included, whatever `dacPower` is (R181; D18). -/
def Obligations.SilentWaveChannelIsLeftAlone : Prop :=
  (∀ (params : Params) (ch : WaveChannel) (N : Nat), ch.playing = false → waveTick params ch N = .ok none) ∧
  (∀ (n : Nat) (s : State), s.w.playing = false → tickW n s = .next s) ∧
  (∀ s t : State, exec .tick s = .next t → s.w.playing = false → t.w = s.w)

/-- What the tick of a playing pulse channel does to the channel: `ticks` goes up by 1; the envelope, tested on the count
already incremented, moves `currentVolume` by 3 within 0 to 15; after `k` steps from `v` that is `min(15, v + 3k)` or
`max(0, v − 3k)` (R162, R164). -/
def Obligations.PulseTickCountsAndStepsTheEnvelope : Prop :=
  (∀ (ch ch' : PulseChannel) (N : Nat) (samples : List Sample), pulseTick ch N = .ok (some (ch', samples)) →
    ch'.ticks = ch.ticks + 1 ∧
    ch'.currentVolume.toNat =
      if ch.envelopePeriod.toNat ≠ 0 ∧ ch'.ticks % ch.envelopePeriod.toNat = 0 then
        if ch.envelopeAdd = true then min 15 (ch.currentVolume.toNat + 3) else ch.currentVolume.toNat - 3
      else ch.currentVolume.toNat) ∧
  (∀ (add : Bool) (v : BitVec 4) (k : Nat), ((envelopeStep add)^[k] v).toNat =
    if add = true then min 15 (v.toNat + 3 * k) else v.toNat - 3 * k)

/-- `PulseTick` of a playing channel whose `waveLength` is not 0 answers true, with the channel of steps 1 to 3 and
exactly the samples of steps 4 to 8 (R171; bit order D6, exact indexes D7, ramp D8, short requests D11). -/
def Obligations.PulseTickFollowsItsRule : Prop :=
  ∀ (ch : PulseChannel) (N : Nat), ch.playing = true → ch.frequency.toNat ≤ 2045 →
    pulseTick ch N = .ok (some (pulseAfterTick ch, asSamples (pulseSample (pulseAfterTick ch) N) N))

/-- `WaveTick` of a playing channel whose `waveLength` is not 0, on an instance of exact arithmetic, answers true, with
the channel of steps 1 and 2 and exactly the samples of the rest (R189; D7, D8, D9, D11). -/
def Obligations.WaveTickFollowsItsRule : Prop :=
  ∀ (params : Params) (ch : WaveChannel) (N : Nat), params.stepIndex = [] → ch.playing = true →
    ch.frequency.toNat ≤ 2046 →
    waveTick params ch N = .ok (some (waveAfterTick ch, asSamples (waveSampleWith (exactEntry ch) (waveAfterTick ch) N) N))

/-- A channel tick faults exactly when the channel is playing with `waveLength` 0: pulse frequency 2046 or 2047, wave
frequency 2047 (R172, R190; D10). -/
def Obligations.ChannelTicksFaultOnZeroWaveLength : Prop :=
  (∀ (ch : PulseChannel) (N : Nat), pulseTick ch N = .error .zeroWaveLength ↔
    ch.playing = true ∧ 2046 ≤ ch.frequency.toNat) ∧
  (∀ (params : Params) (ch : WaveChannel) (N : Nat), waveTick params ch N = .error .zeroWaveLength ↔
    ch.playing = true ∧ ch.frequency.toNat = 2047)

/-- Where a pulse period is high: with high steps `a` to `b`, sample `i` is `currentVolume` exactly when
`ceil(a × n / 24) ≤ i < ceil((b + 1) × n / 24)`, and a period has the number of high samples that follows (R167, R174). -/
def Obligations.PulsePeriodHighSamples : Prop :=
  ∀ ch : PulseChannel,
    let n := 2048 - ch.frequency.toNat
    let L := n / 3
    let first := ((highSteps ch.duty).1 * n + 23) / 24
    let past := (((highSteps ch.duty).2 + 1) * n + 23) / 24
    (∀ i < L, pulsePattern ch i = if first ≤ i ∧ i < past then ch.currentVolume.toNat else 0) ∧
    (ch.currentVolume ≠ 0 →
      ((List.range L).filter fun i => decide (pulsePattern ch i ≠ 0)).length = min L past - min L first)

/-- Inside a period a pulse step is at most 7 and a wave entry index at most 31, so every index of R165 and R50 exists,
and the exact wave index is the model's (R92, R19). -/
def Obligations.StepIndexesStayInRange : Prop :=
  ∀ (frequency : BitVec 11) (i : Nat),
    (i < pulseWaveLength frequency → pulseStep frequency i ≤ 7) ∧
    (i < waveWaveLength frequency → 48 * i / (2048 - frequency.toNat) ≤ 31 ∧
      (exactWaveEntry frequency i).toNat = 48 * i / (2048 - frequency.toNat))

/-- The listed binary64 and binary32 points (U7) are points of a period at which the exact quotient is an integer `e`,
and the value they give is `e − 1`; there are 55 and 54 of them. -/
def Obligations.FloatingPointStepIndexesSlipByOne : Prop :=
  binary64StepIndex.length = 55 ∧ binary32StepIndex.length = 54 ∧
    ∀ point ∈ binary64StepIndex ++ binary32StepIndex,
      point.2.1 < waveWaveLength point.1 ∧ 48 * point.2.1 = (point.2.2.toNat + 1) * (2048 - point.1.toNat)

/-- With length enabled and the counter at `c`, a playing channel is still playing after `j ≥ 1` TICKs exactly when
`4 × j < c`: it plays `ceil(c / 4)` ticks, and one tick when `c ≤ 0` (R163, R182, R18). -/
def Obligations.LengthCounterPlaysCeilQuarterTicks : Prop :=
  ∀ (j : Nat) (s t : State), 1 ≤ j → runAll (List.replicate j .tick) s = .next t →
    (s.p1.playing = true → s.p1.lengthEnabled = true →
      (t.p1.playing = true ↔ 4 * (j : Int) < s.p1.lengthCounter)) ∧
    (s.p2.playing = true → s.p2.lengthEnabled = true →
      (t.p2.playing = true ↔ 4 * (j : Int) < s.p2.lengthCounter)) ∧
    (s.w.playing = true → s.w.lengthEnabled = true →
      (t.w.playing = true ↔ 4 * (j : Int) < s.w.lengthCounter))

/-- Over `j` TICKs a playing pulse channel without length steps its envelope as often as `ticks` meets a multiple of the
period, each step by 3, and stays at 0 or 15 once there (R164, R17, R273). -/
def Obligations.EnvelopeRampSaturates : Prop :=
  ∀ (j : Nat) (s t : State), runAll (List.replicate j .tick) s = .next t →
    let follows := fun (before after : PulseChannel) =>
      before.playing = true → before.lengthEnabled = false → before.envelopePeriod.toNat ≠ 0 →
      let steps := (before.ticks + j) / before.envelopePeriod.toNat - before.ticks / before.envelopePeriod.toNat
      after.currentVolume.toNat =
        if before.envelopeAdd = true then min 15 (before.currentVolume.toNat + 3 * steps)
        else before.currentVolume.toNat - 3 * steps
    follows s.p1 t.p1 ∧ follows s.p2 t.p2

/-! ### TICK -/

/-- TICK, whole (R206): with the sink open and answering `cap`, and no playing channel of `waveLength` 0, TICK answers
`OK`; for `n = min(cap, F)` it writes the block of R206's closed form, leaves it with zeros behind it in the master
buffer, the last playing channel's samples in `SCR[0..n)` and the scratch buffer alone if none plays, advances each
playing channel, and changes nothing else. The clauses about `SCR` are the model's reading, log entry 15: that a channel
tick defines `SCR[0..n)`, and one that returns false leaves it, is R52; which channel comes last is the order the spec
decided (D2); U6 lets `SCR` hold any value between ticks, and nothing observable rests on it (R209). -/
def Obligations.TickFollowsItsRule : Prop :=
  ∀ (s : State) (cap : Nat), s.sinkAnswers cap → s.renders →
    let n := min cap s.params.frameSampleCount
    ∃ t, exec .tick s = .next t ∧
      t.p1 = pulseAfterTick s.p1 ∧ t.p2 = pulseAfterTick s.p2 ∧ t.w = waveAfterTick s.w ∧
      t.out = s.out ++ [mixedBlock s n] ∧
      t.mst = mixedBlock s n ++ List.replicate (s.params.frameSampleCount - n) 0 ∧
      (s.w.playing = true →
        t.scr.take n = asSamples (waveSampleWith (instanceEntry s.params s.w) (waveAfterTick s.w) n) n) ∧
      (s.w.playing = false → s.p2.playing = true → t.scr.take n = asSamples (pulseSample (pulseAfterTick s.p2) n) n) ∧
      (s.w.playing = false → s.p2.playing = false → s.p1.playing = true →
        t.scr.take n = asSamples (pulseSample (pulseAfterTick s.p1) n) n) ∧
      (s.w.playing = false → s.p2.playing = false → s.p1.playing = false → t.scr = s.scr) ∧
      t.responses = s.responses ++ [.ok] ∧ t.params = s.params ∧ t.port = s.port ∧
      t.sink = { s.sink with answers := s.sink.answers.tail }

/-- A TICK that runs faults exactly when some channel is playing with `waveLength` 0, whatever the capacity (R211;
D10). -/
def Obligations.TickFaultsExactlyOnZeroWaveLength : Prop :=
  ∀ s : State, exec .tick s = .fault .zeroWaveLength ↔
    s.sink.isOpen = true ∧ (∃ cap, sinkCapacity s = some cap) ∧
      ((s.p1.playing = true ∧ 2046 ≤ s.p1.frequency.toNat) ∨ (s.p2.playing = true ∧ 2046 ≤ s.p2.frequency.toNat) ∨
        (s.w.playing = true ∧ s.w.frequency.toNat = 2047))

/-- A TICK is refused exactly while the sink is closed, or when the open sink answers a negative capacity, and a fault
does not come first (R234, R237, R239, R246; D13, D22). The names of the refusals, and that a closed sink is `sinkClosed`
even where its listed answer is negative, are the model's choice, log entry 9. -/
def Obligations.TickIsRefusedExactlyByTheSink : Prop :=
  ∀ (s : State) (r : Refusal), exec .tick s = .refused r ↔
    (s.sink.isOpen = false ∧ r = .sinkClosed) ∨
    (s.sink.isOpen = true ∧ r = .negativeCapacity ∧ ∃ answer rest, s.sink.answers = answer :: rest ∧ answer < 0)

/-- What TICK writes to the sink is exactly one block, the first `min(cap, F)` samples of the master buffer, on every
TICK; no other command touches the history or the sink (R205, R96, R146). -/
def Obligations.OnlyTickWritesToTheSink : Prop :=
  ∀ (i : Instr) (s t : State), exec i s = .next t →
    (i = .tick → ∃ cap, sinkCapacity s = some cap ∧
      t.out = s.out ++ [t.mst.take (min cap s.params.frameSampleCount)]) ∧
    (i ≠ .tick → t.out = s.out ∧ t.sink = s.sink)

/-- With no channel playing, TICK writes `min(cap, F)` zeros (R205, R210, R260) and changes no channel (R161, R181) and no
scratch entry. That the scratch buffer is the same after the TICK is the model's reading, log entry 15: each channel tick
leaves it alone (R161, R181, R52), while U6 lets `SCR` hold any value between ticks. -/
def Obligations.SilenceIsTheZeroBlock : Prop :=
  ∀ (s : State) (cap : Nat), s.sinkAnswers cap → s.p1.playing = false → s.p2.playing = false → s.w.playing = false →
    ∃ t, exec .tick s = .next t ∧ t.out = s.out ++ [List.replicate (min cap s.params.frameSampleCount) 0] ∧
      t.p1 = s.p1 ∧ t.p2 = s.p2 ∧ t.w = s.w ∧ t.scr = s.scr

/-- Every sample a TICK writes is 0 to 9, from any state, reachable or not (R48, R208). -/
def Obligations.TickSamplesAreAtMostNine : Prop :=
  ∀ s t : State, exec .tick s = .next t → ∃ block, t.out = s.out ++ [block] ∧ ∀ x ∈ block, x.toNat ≤ 9

/-- The channels after a TICK do not depend on what the sink answers: a TICK with no room advances them as any other
(R207, R270; D17). -/
def Obligations.ChannelsAdvanceWhateverTheCapacity : Prop :=
  ∀ (s t t' : State) (answers : List Int), exec .tick s = .next t →
    exec .tick { s with sink := { s.sink with answers := answers } } = .next t' →
    t'.p1 = t.p1 ∧ t'.p2 = t.p2 ∧ t'.w = t.w

/-- The order in which the mixer ticks two channels shows nowhere but in the scratch buffer (R203; D2). -/
def Obligations.ChannelOrderIsUnobservable : Prop :=
  ∀ (n : Nat) (s : State),
    let alike := outcomesAgree fun t u => sameObservables t u ∧ t.mst = u.mst ∧ t.freeDraws = u.freeDraws
    alike (andThen (tickP1 n s) (tickP2 n)) (andThen (tickP2 n s) (tickP1 n)) ∧
    alike (andThen (tickP1 n s) (tickW n)) (andThen (tickW n s) (tickP1 n)) ∧
    alike (andThen (tickP2 n s) (tickW n)) (andThen (tickW n s) (tickP2 n))

/-- No command lets the content of the buffers or a drawn free value reach anything but the buffers: two states that
differ in nothing else give outcomes that differ in nothing else. Where the state lists no answer of the sink, the
answer itself is such a draw, so there the counters must agree (R209). -/
def Obligations.BuffersAndFreeValuesAreUnobservable : Prop :=
  ∀ (i : Instr) (s : State) (mst scr : Buffer) (draws : Nat), (draws = s.freeDraws ∨ s.sink.answers ≠ []) →
    outcomesAgree sameObservables (exec i s) (exec i { s with mst := mst, scr := scr, freeDraws := draws })

/-- Over a run of any length what the buffers held at its start is never observed (R209, R51). -/
def Obligations.RunsNeverObserveTheInitialBuffers : Prop :=
  ∀ (k : Nat) (s : State) (mst scr : Buffer),
    outcomesAgree sameObservables (Sys2Proof.core.run k s) (Sys2Proof.core.run k { s with mst := mst, scr := scr })

/-! ### RESET -/

/-- RESET puts every channel field and table entry at its default and leaves `OUT`, the sink, the parameters and the
port alone; the buffers keep their size, and their content is unspecified (R221, R222; D20, D28). -/
def Obligations.ResetRestoresTheDefaults : Prop :=
  ∀ s : State, ∃ t, exec .reset s = .next t ∧
    pulseDefaults t.p1 ∧ pulseDefaults t.p2 ∧ waveDefaults t.w ∧ t.out = s.out ∧ t.sink = s.sink ∧
    t.params = s.params ∧ t.port = s.port ∧ t.responses = s.responses ++ [.ok] ∧
    t.mst.length = s.params.frameSampleCount ∧ t.scr.length = s.params.frameSampleCount

/-- After power-on and after RESET every field of the channels and every table entry is 0 or false; `OUT` is empty at
power-on, and RESET does not change it (R59). -/
def Obligations.ResetStateIsAllDefaults : Prop :=
  (pulseDefaults State.reset.p1 ∧ pulseDefaults State.reset.p2 ∧ waveDefaults State.reset.w ∧ State.reset.out = []) ∧
  ∀ s t : State, exec .reset s = .next t →
    pulseDefaults t.p1 ∧ pulseDefaults t.p2 ∧ waveDefaults t.w ∧ t.out = s.out

/-! ### The whole machine -/

/-- The invariant holds at reset. -/
def Obligations.InvariantHoldsAtReset : Prop := State.reset.Inv

/-- Every step keeps the invariant: the length counters stay in −4 to 63 and −4 to 255, both buffers keep their `F`
samples, and every block written has at most `F` samples of 0 to 9 (R36, R51, R52, R48). -/
def Obligations.EveryStepKeepsTheInvariant : Prop := ∀ s t : State, s.Inv → step s = .next t → t.Inv

/-- Only a write to index 4 of a channel, with its trigger bit set, makes the channel play (R43). -/
def Obligations.OnlyATriggerStartsAChannel : Prop :=
  ∀ (i : Instr) (s t : State), exec i s = .next t →
    (s.p1.playing = false → t.p1.playing = true → ∃ value, i = .wrcP1_4 value ∧ value.getLsbD 7 = true) ∧
    (s.p2.playing = false → t.p2.playing = true → ∃ value, i = .wrcP2_4 value ∧ value.getLsbD 7 = true) ∧
    (s.w.playing = false → t.w.playing = true → ∃ value, i = .wrcW_4 value ∧ value.getLsbD 7 = true)

/-- `ticks` of a channel goes up by 1 in a TICK that finds the channel playing, is cleared by RESET, and is changed by
nothing else (R44; D15, D19). -/
def Obligations.TicksCountPlayingTicks : Prop :=
  ∀ (i : Instr) (s t : State), exec i s = .next t →
    let after := fun (playing : Bool) (ticks : Nat) =>
      if i = .reset then 0 else if i = .tick ∧ playing = true then ticks + 1 else ticks
    t.p1.ticks = after s.p1.playing s.p1.ticks ∧ t.p2.ticks = after s.p2.playing s.p2.ticks ∧
      t.w.ticks = after s.w.playing s.w.ticks

/-- Who writes what (R61): a channel's settings change only by a write to the channel and RESET, all of a channel only
by those and TICK, the table only by WWT and RESET, the buffers only by TICK and RESET; parameters and port by none. -/
def Obligations.WritersOfEachField : Prop :=
  ∀ (i : Instr) (s t : State), exec i s = .next t →
    t.params = s.params ∧ t.port = s.port ∧
    (i ≠ .reset →
      (writesP1 i = false → pulseSettings t.p1 = pulseSettings s.p1 ∧ (i ≠ .tick → t.p1 = s.p1)) ∧
      (writesP2 i = false → pulseSettings t.p2 = pulseSettings s.p2 ∧ (i ≠ .tick → t.p2 = s.p2)) ∧
      (writesW i = false → waveSettings t.w = waveSettings s.w) ∧
      ((∀ widx value, i ≠ .wwt widx value) → t.w.table = s.w.table ∧ (writesW i = false → i ≠ .tick → t.w = s.w)) ∧
      (i ≠ .tick → t.mst = s.mst ∧ t.scr = s.scr))

/-- A channel after a command depends on nothing but the command and that channel (R31). -/
def Obligations.ChannelsAreIndependent : Prop :=
  ∀ (i : Instr) (s s' t t' : State), exec i s = .next t → exec i s' = .next t' →
    (s.p1 = s'.p1 → t.p1 = t'.p1) ∧ (s.p2 = s'.p2 → t.p2 = t'.p2) ∧ (s.w = s'.w → t.w = t'.w)

/-- A command that completes answers once: `INVALID_ARGUMENT` for a wave-byte index of 16 or more, `OK` otherwise (R130,
R230, R239). -/
def Obligations.EveryCommandAnswersOnce : Prop :=
  ∀ (i : Instr) (s t : State), exec i s = .next t → t.responses = s.responses ++ [responseOf i]
end

