-- ==== Sys2Proof/Laws/Decode.lean ====
section
/-! SUPPORT. The command word as a number: its fields are quotients and remainders, and a format's word is their sum. -/

namespace Sys2Proof

theorem extractLsb'_toNat_div {n : Nat} (x : BitVec n) (start len : Nat) :
    (x.extractLsb' start len).toNat = x.toNat / 2 ^ start % 2 ^ len := by
  simp [BitVec.extractLsb'_toNat, Nat.shiftRight_eq_div_pow]

theorem getLsbD_eq_div {n : Nat} (x : BitVec n) (k : Nat) : x.getLsbD k = decide (x.toNat / 2 ^ k % 2 = 1) := by
  rw [BitVec.getLsbD, Nat.testBit_eq_decide_div_mod_eq]

theorem append_toNat_add {m n : Nat} (x : BitVec m) (y : BitVec n) :
    (x ++ y).toNat = x.toNat * 2 ^ n + y.toNat := by
  rw [BitVec.toNat_append, ← Nat.shiftLeft_add_eq_or_of_lt y.isLt, Nat.shiftLeft_eq]

theorem wrcWord_toNat (ch : BitVec 2) (idx : BitVec 3) (value : Byte) :
    (wrcWord ch idx value).toNat = ch.toNat * 4096 + idx.toNat * 256 + value.toNat := by
  have h : (wrcWord ch idx value).toNat = ((((0b00#2 ++ ch) ++ 0b0#1) ++ idx) ++ value).toNat := rfl
  rw [h]
  simp only [append_toNat_add, BitVec.toNat_ofNat]
  omega

theorem wwtWord_toNat (widx : BitVec 6) (value : Byte) :
    (wwtWord widx value).toNat = 16384 + widx.toNat * 256 + value.toNat := by
  have h : (wwtWord widx value).toNat = ((0b01#2 ++ widx) ++ value).toNat := rfl
  rw [h]
  simp only [append_toNat_add, BitVec.toNat_ofNat]
  omega

theorem extractLsb'_eq_ofNat {n : Nat} (x : BitVec n) (start len : Nat) :
    x.extractLsb' start len = BitVec.ofNat len (x.toNat / 2 ^ start) := by
  apply BitVec.eq_of_toNat_eq
  rw [extractLsb'_toNat_div, BitVec.toNat_ofNat]

theorem ofNat_eq_ofNat_iff {n : Nat} (a b : Nat) : BitVec.ofNat n a = BitVec.ofNat n b ↔ a % 2 ^ n = b % 2 ^ n := by
  rw [← BitVec.toNat_inj, BitVec.toNat_ofNat, BitVec.toNat_ofNat]

/-- The decoder over the word as a number. -/
theorem decode_eq (word : CommandWord) :
    decode word =
      if word.toNat / 2 ^ 14 = 0 then
        if word.toNat / 2 ^ 12 % 4 = 3 ∨ word.toNat / 2 ^ 11 % 2 = 1 ∨ 5 ≤ word.toNat / 2 ^ 8 % 8 then none
        else
          decodeWrc (BitVec.ofNat 2 (word.toNat / 2 ^ 12)) (BitVec.ofNat 3 (word.toNat / 2 ^ 8))
            (BitVec.ofNat 8 word.toNat)
      else if word.toNat / 2 ^ 14 = 1 then
        some (.wwt (BitVec.ofNat 6 (word.toNat / 2 ^ 8)) (BitVec.ofNat 8 word.toNat))
      else if word.toNat / 2 ^ 14 = 2 then (if word.toNat % 2 ^ 14 = 0 then some .tick else none)
      else (if word.toNat % 2 ^ 14 = 0 then some .reset else none) := by
  have hw := word.isLt
  have hop : word.toNat / 16384 % 4 = word.toNat / 16384 := by omega
  unfold decode
  simp only [extractLsb'_eq_ofNat, getLsbD_eq_div, ofNat_eq_ofNat_iff, BitVec.toNat_ofNat, decide_eq_true_eq, hop,
    Nat.pow_zero, Nat.div_one, gt_iff_lt, Nat.zero_mod, Nat.reducePow, Nat.reduceMod, Nat.lt_iff_add_one_le,
    Nat.reduceAdd]

theorem decodeWrc_eq_none (ch : BitVec 2) (idx : BitVec 3) (value : Byte) :
    decodeWrc ch idx value = none ↔ ch.toNat = 3 ∨ 5 ≤ idx.toNat := by
  have h : ∀ (ch : BitVec 2) (idx : BitVec 3),
      (decodeWrc ch idx 0).isNone = true ↔ ch.toNat = 3 ∨ 5 ≤ idx.toNat := by decide
  rw [← h ch idx]
  unfold decodeWrc
  split <;> simp

theorem encode_of_decodeWrc {ch : BitVec 2} {idx : BitVec 3} {value : Byte} {i : Instr}
    (h : decodeWrc ch idx value = some i) : encode i = wrcWord ch idx value := by
  unfold decodeWrc at h
  split at h <;> cases h
  all_goals
    simp only [encode]
    congr 1 <;> (apply BitVec.eq_of_toNat_eq; symm; assumption)

/-- Masking all bits from `k` up is a quotient. -/
theorem and_shifted_mask (word : CommandWord) (k : Nat) :
    (word &&& (BitVec.allOnes 16 >>> k) <<< k).toNat = word.toNat / 2 ^ k * 2 ^ k := by
  have h : word &&& (BitVec.allOnes 16 >>> k) <<< k = (word >>> k) <<< k := by
    ext j hj
    simp only [BitVec.getElem_and, BitVec.getElem_shiftLeft, BitVec.getElem_ushiftRight, BitVec.getLsbD_allOnes]
    by_cases h : j < k
    · simp [h]
    · simp [h, show k + (j - k) = j by omega, hj, BitVec.getLsbD_eq_getElem]
  have hw := word.isLt
  have := Nat.div_mul_le_self word.toNat (2 ^ k)
  rw [h, BitVec.toNat_shiftLeft, BitVec.toNat_ushiftRight, Nat.shiftRight_eq_div_pow, Nat.shiftLeft_eq]
  exact Nat.mod_eq_of_lt (by omega)

end Sys2Proof
end

