-- ==== Sys2Proof/Laws/Operands.lean ====
section
/-! SUPPORT. The fields of a written byte as numbers (R108 to R119), the duty table's high steps (R165) and the sizes of
a period (R166, R183, R92). -/

namespace Sys2Proof.Machine

theorem dutyField_eq (value : Byte) : dutyField value = BitVec.ofNat 2 (value.toNat / 64) := by
  apply BitVec.eq_of_toNat_eq
  rw [dutyField, extractLsb'_toNat_div, BitVec.toNat_ofNat]
  norm_num

theorem pulseLengthField_eq (value : Byte) : pulseLengthField value = BitVec.ofNat 6 (value.toNat % 64) := by
  apply BitVec.eq_of_toNat_eq
  rw [pulseLengthField, extractLsb'_toNat_div, BitVec.toNat_ofNat]
  omega

theorem volumeField_eq (value : Byte) : volumeField value = BitVec.ofNat 4 (value.toNat / 16) := by
  apply BitVec.eq_of_toNat_eq
  rw [volumeField, extractLsb'_toNat_div, BitVec.toNat_ofNat]
  norm_num

theorem envelopePeriodField_eq (value : Byte) : envelopePeriodField value = BitVec.ofNat 3 (value.toNat % 8) := by
  apply BitVec.eq_of_toNat_eq
  rw [envelopePeriodField, extractLsb'_toNat_div, BitVec.toNat_ofNat]
  omega

theorem volumeCodeField_eq (value : Byte) : volumeCodeField value = BitVec.ofNat 2 (value.toNat / 32 % 4) := by
  apply BitVec.eq_of_toNat_eq
  rw [volumeCodeField, extractLsb'_toNat_div, BitVec.toNat_ofNat]
  omega

theorem highNibble_eq (value : Byte) : highNibble value = BitVec.ofNat 4 (value.toNat / 16) := by
  apply BitVec.eq_of_toNat_eq
  rw [highNibble, extractLsb'_toNat_div, BitVec.toNat_ofNat]
  norm_num

theorem lowNibble_eq (value : Byte) : lowNibble value = BitVec.ofNat 4 (value.toNat % 16) := by
  apply BitVec.eq_of_toNat_eq
  rw [lowNibble, extractLsb'_toNat_div, BitVec.toNat_ofNat]
  omega

theorem envelopeAddBit_eq (value : Byte) : envelopeAddBit value = decide (value.toNat / 8 % 2 = 1) := by
  rw [envelopeAddBit, getLsbD_eq_div]; rfl

theorem lengthEnableBit_eq (value : Byte) : lengthEnableBit value = decide (value.toNat / 64 % 2 = 1) := by
  rw [lengthEnableBit, getLsbD_eq_div]; rfl

theorem triggerBit_eq (value : Byte) : triggerBit value = decide (value.toNat / 128 = 1) := by
  have := value.isLt
  rw [triggerBit, getLsbD_eq_div, decide_eq_decide]
  omega

theorem dacPowerBit_eq (value : Byte) : dacPowerBit value = decide (value.toNat / 128 = 1) := triggerBit_eq value

/-- The index-3 write joins the old high 3 bits and the value. -/
theorem withFrequencyLow_eq_append (frequency : BitVec 11) (value : Byte) :
    withFrequencyLow frequency value = frequency.extractLsb' 8 3 ++ value := by
  unfold withFrequencyLow
  apply BitVec.eq_of_getLsbD_eq
  intro k hk
  have mask : (0x700#11).getLsbD k = decide (8 ≤ k) := by interval_cases k <;> rfl
  rw [BitVec.getLsbD_or, BitVec.getLsbD_and, mask, BitVec.getLsbD_setWidth, BitVec.getLsbD_append,
    BitVec.getLsbD_extractLsb']
  by_cases h : k < 8
  · simp [h, hk]
  · simp [h, hk, show 8 ≤ k by omega, show k - 8 < 3 by omega]

/-- The index-4 write joins the value's low 3 bits and the old low byte. -/
theorem withFrequencyHigh_eq_append (frequency : BitVec 11) (value : Byte) :
    withFrequencyHigh frequency value = value.extractLsb' 0 3 ++ frequency.extractLsb' 0 8 := by
  unfold withFrequencyHigh
  apply BitVec.eq_of_getLsbD_eq
  intro k hk
  have mask : (0x0FF#11).getLsbD k = decide (k < 8) := by interval_cases k <;> rfl
  rw [BitVec.getLsbD_or, BitVec.getLsbD_and, mask, BitVec.getLsbD_shiftLeft, BitVec.getLsbD_setWidth,
    BitVec.getLsbD_append, BitVec.getLsbD_extractLsb', BitVec.getLsbD_extractLsb']
  by_cases h : k < 8
  · simp [h]
  · simp [h, hk, show k - 8 < 11 by omega]

theorem withFrequencyLow_toNat (frequency : BitVec 11) (value : Byte) :
    (withFrequencyLow frequency value).toNat = frequency.toNat / 256 * 256 + value.toNat := by
  have := frequency.isLt
  rw [withFrequencyLow_eq_append, append_toNat_add, extractLsb'_toNat_div]
  omega

theorem withFrequencyHigh_toNat (frequency : BitVec 11) (value : Byte) :
    (withFrequencyHigh frequency value).toNat = value.toNat % 8 * 256 + frequency.toNat % 256 := by
  rw [withFrequencyHigh_eq_append, append_toNat_add, extractLsb'_toNat_div, extractLsb'_toNat_div]
  omega

/-- The high steps of each duty are one run of steps, inside 1 to 6. -/
theorem dutyStepHigh_table : ∀ (duty : BitVec 2) (step : Fin 8),
    dutyStepHigh duty step = decide
      ((duty = 0 ∧ step = 2) ∨ (duty = 1 ∧ (step = 2 ∨ step = 3)) ∨ (duty = 2 ∧ 2 ≤ step ∧ step ≤ 5) ∨
        (duty = 3 ∧ 1 ≤ step ∧ step ≤ 6)) := by
  decide

/-- `n = 2048 − frequency` is 1 to 2048 (R16). -/
theorem periodBase_pos (frequency : BitVec 11) : 0 < periodBase frequency ∧ periodBase frequency ≤ 2048 := by
  have := frequency.isLt
  unfold periodBase
  omega

theorem pulseWaveLength_eq_zero (frequency : BitVec 11) : pulseWaveLength frequency = 0 ↔ 2046 ≤ frequency.toNat := by
  have := frequency.isLt
  unfold pulseWaveLength periodBase
  omega

theorem waveWaveLength_eq_zero (frequency : BitVec 11) : waveWaveLength frequency = 0 ↔ frequency.toNat = 2047 := by
  have := frequency.isLt
  unfold waveWaveLength periodBase
  omega

end Sys2Proof.Machine
end

