-- ==== Sys2Proof/Laws/State.lean ====
section
/-! SUPPORT. One lemma per field per named update of the state, so that no proof unfolds a record update. -/

namespace Sys2Proof.Machine

/-! ### `setP1` -/

@[simp] theorem State.setP1_p1 (s : State) (ch : PulseChannel) : (s.setP1 ch).p1 = ch := rfl
@[simp] theorem State.setP1_p2 (s : State) (ch : PulseChannel) : (s.setP1 ch).p2 = s.p2 := rfl
@[simp] theorem State.setP1_w (s : State) (ch : PulseChannel) : (s.setP1 ch).w = s.w := rfl
@[simp] theorem State.setP1_mst (s : State) (ch : PulseChannel) : (s.setP1 ch).mst = s.mst := rfl
@[simp] theorem State.setP1_scr (s : State) (ch : PulseChannel) : (s.setP1 ch).scr = s.scr := rfl
@[simp] theorem State.setP1_out (s : State) (ch : PulseChannel) : (s.setP1 ch).out = s.out := rfl
@[simp] theorem State.setP1_responses (s : State) (ch : PulseChannel) : (s.setP1 ch).responses = s.responses := rfl
@[simp] theorem State.setP1_params (s : State) (ch : PulseChannel) : (s.setP1 ch).params = s.params := rfl
@[simp] theorem State.setP1_sink (s : State) (ch : PulseChannel) : (s.setP1 ch).sink = s.sink := rfl
@[simp] theorem State.setP1_port (s : State) (ch : PulseChannel) : (s.setP1 ch).port = s.port := rfl
@[simp] theorem State.setP1_freeDraws (s : State) (ch : PulseChannel) : (s.setP1 ch).freeDraws = s.freeDraws := rfl

/-! ### `setP2` -/

@[simp] theorem State.setP2_p1 (s : State) (ch : PulseChannel) : (s.setP2 ch).p1 = s.p1 := rfl
@[simp] theorem State.setP2_p2 (s : State) (ch : PulseChannel) : (s.setP2 ch).p2 = ch := rfl
@[simp] theorem State.setP2_w (s : State) (ch : PulseChannel) : (s.setP2 ch).w = s.w := rfl
@[simp] theorem State.setP2_mst (s : State) (ch : PulseChannel) : (s.setP2 ch).mst = s.mst := rfl
@[simp] theorem State.setP2_scr (s : State) (ch : PulseChannel) : (s.setP2 ch).scr = s.scr := rfl
@[simp] theorem State.setP2_out (s : State) (ch : PulseChannel) : (s.setP2 ch).out = s.out := rfl
@[simp] theorem State.setP2_responses (s : State) (ch : PulseChannel) : (s.setP2 ch).responses = s.responses := rfl
@[simp] theorem State.setP2_params (s : State) (ch : PulseChannel) : (s.setP2 ch).params = s.params := rfl
@[simp] theorem State.setP2_sink (s : State) (ch : PulseChannel) : (s.setP2 ch).sink = s.sink := rfl
@[simp] theorem State.setP2_port (s : State) (ch : PulseChannel) : (s.setP2 ch).port = s.port := rfl
@[simp] theorem State.setP2_freeDraws (s : State) (ch : PulseChannel) : (s.setP2 ch).freeDraws = s.freeDraws := rfl

/-! ### `setW` -/

@[simp] theorem State.setW_p1 (s : State) (ch : WaveChannel) : (s.setW ch).p1 = s.p1 := rfl
@[simp] theorem State.setW_p2 (s : State) (ch : WaveChannel) : (s.setW ch).p2 = s.p2 := rfl
@[simp] theorem State.setW_w (s : State) (ch : WaveChannel) : (s.setW ch).w = ch := rfl
@[simp] theorem State.setW_mst (s : State) (ch : WaveChannel) : (s.setW ch).mst = s.mst := rfl
@[simp] theorem State.setW_scr (s : State) (ch : WaveChannel) : (s.setW ch).scr = s.scr := rfl
@[simp] theorem State.setW_out (s : State) (ch : WaveChannel) : (s.setW ch).out = s.out := rfl
@[simp] theorem State.setW_responses (s : State) (ch : WaveChannel) : (s.setW ch).responses = s.responses := rfl
@[simp] theorem State.setW_params (s : State) (ch : WaveChannel) : (s.setW ch).params = s.params := rfl
@[simp] theorem State.setW_sink (s : State) (ch : WaveChannel) : (s.setW ch).sink = s.sink := rfl
@[simp] theorem State.setW_port (s : State) (ch : WaveChannel) : (s.setW ch).port = s.port := rfl
@[simp] theorem State.setW_freeDraws (s : State) (ch : WaveChannel) : (s.setW ch).freeDraws = s.freeDraws := rfl

/-! ### `respond` -/

@[simp] theorem State.respond_p1 (s : State) (r : Response) : (s.respond r).p1 = s.p1 := rfl
@[simp] theorem State.respond_p2 (s : State) (r : Response) : (s.respond r).p2 = s.p2 := rfl
@[simp] theorem State.respond_w (s : State) (r : Response) : (s.respond r).w = s.w := rfl
@[simp] theorem State.respond_mst (s : State) (r : Response) : (s.respond r).mst = s.mst := rfl
@[simp] theorem State.respond_scr (s : State) (r : Response) : (s.respond r).scr = s.scr := rfl
@[simp] theorem State.respond_out (s : State) (r : Response) : (s.respond r).out = s.out := rfl
@[simp] theorem State.respond_responses (s : State) (r : Response) :
    (s.respond r).responses = s.responses ++ [r] := rfl
@[simp] theorem State.respond_params (s : State) (r : Response) : (s.respond r).params = s.params := rfl
@[simp] theorem State.respond_sink (s : State) (r : Response) : (s.respond r).sink = s.sink := rfl
@[simp] theorem State.respond_port (s : State) (r : Response) : (s.respond r).port = s.port := rfl
@[simp] theorem State.respond_freeDraws (s : State) (r : Response) : (s.respond r).freeDraws = s.freeDraws := rfl

/-! ### `zeroMaster` -/

@[simp] theorem State.zeroMaster_p1 (s : State) : s.zeroMaster.p1 = s.p1 := rfl
@[simp] theorem State.zeroMaster_p2 (s : State) : s.zeroMaster.p2 = s.p2 := rfl
@[simp] theorem State.zeroMaster_w (s : State) : s.zeroMaster.w = s.w := rfl
@[simp] theorem State.zeroMaster_mst (s : State) :
    s.zeroMaster.mst = List.replicate s.params.frameSampleCount 0 := rfl
@[simp] theorem State.zeroMaster_scr (s : State) : s.zeroMaster.scr = s.scr := rfl
@[simp] theorem State.zeroMaster_out (s : State) : s.zeroMaster.out = s.out := rfl
@[simp] theorem State.zeroMaster_responses (s : State) : s.zeroMaster.responses = s.responses := rfl
@[simp] theorem State.zeroMaster_params (s : State) : s.zeroMaster.params = s.params := rfl
@[simp] theorem State.zeroMaster_sink (s : State) : s.zeroMaster.sink = s.sink := rfl
@[simp] theorem State.zeroMaster_port (s : State) : s.zeroMaster.port = s.port := rfl
@[simp] theorem State.zeroMaster_freeDraws (s : State) : s.zeroMaster.freeDraws = s.freeDraws := rfl

/-! ### `mixChannel` -/

@[simp] theorem State.mixChannel_p1 (s : State) (n : Nat) (samples : List Sample) :
    (s.mixChannel n samples).p1 = s.p1 := rfl
@[simp] theorem State.mixChannel_p2 (s : State) (n : Nat) (samples : List Sample) :
    (s.mixChannel n samples).p2 = s.p2 := rfl
@[simp] theorem State.mixChannel_w (s : State) (n : Nat) (samples : List Sample) :
    (s.mixChannel n samples).w = s.w := rfl
@[simp] theorem State.mixChannel_mst (s : State) (n : Nat) (samples : List Sample) :
    (s.mixChannel n samples).mst = accumulate n s.mst (samples ++ freeSamples s.freeDraws n (s.params.frameSampleCount - n)) := rfl
@[simp] theorem State.mixChannel_scr (s : State) (n : Nat) (samples : List Sample) :
    (s.mixChannel n samples).scr = samples ++ freeSamples s.freeDraws n (s.params.frameSampleCount - n) := rfl
@[simp] theorem State.mixChannel_out (s : State) (n : Nat) (samples : List Sample) :
    (s.mixChannel n samples).out = s.out := rfl
@[simp] theorem State.mixChannel_responses (s : State) (n : Nat) (samples : List Sample) :
    (s.mixChannel n samples).responses = s.responses := rfl
@[simp] theorem State.mixChannel_params (s : State) (n : Nat) (samples : List Sample) :
    (s.mixChannel n samples).params = s.params := rfl
@[simp] theorem State.mixChannel_sink (s : State) (n : Nat) (samples : List Sample) :
    (s.mixChannel n samples).sink = s.sink := rfl
@[simp] theorem State.mixChannel_port (s : State) (n : Nat) (samples : List Sample) :
    (s.mixChannel n samples).port = s.port := rfl
@[simp] theorem State.mixChannel_freeDraws (s : State) (n : Nat) (samples : List Sample) :
    (s.mixChannel n samples).freeDraws = s.freeDraws + 1 := rfl

/-! ### `sinkWrite` -/

@[simp] theorem State.sinkWrite_p1 (s : State) (n : Nat) : (s.sinkWrite n).p1 = s.p1 := rfl
@[simp] theorem State.sinkWrite_p2 (s : State) (n : Nat) : (s.sinkWrite n).p2 = s.p2 := rfl
@[simp] theorem State.sinkWrite_w (s : State) (n : Nat) : (s.sinkWrite n).w = s.w := rfl
@[simp] theorem State.sinkWrite_mst (s : State) (n : Nat) : (s.sinkWrite n).mst = s.mst := rfl
@[simp] theorem State.sinkWrite_scr (s : State) (n : Nat) : (s.sinkWrite n).scr = s.scr := rfl
@[simp] theorem State.sinkWrite_out (s : State) (n : Nat) : (s.sinkWrite n).out = s.out ++ [s.mst.take n] := rfl
@[simp] theorem State.sinkWrite_responses (s : State) (n : Nat) : (s.sinkWrite n).responses = s.responses := rfl
@[simp] theorem State.sinkWrite_params (s : State) (n : Nat) : (s.sinkWrite n).params = s.params := rfl
@[simp] theorem State.sinkWrite_sink (s : State) (n : Nat) : (s.sinkWrite n).sink = s.sink := rfl
@[simp] theorem State.sinkWrite_port (s : State) (n : Nat) : (s.sinkWrite n).port = s.port := rfl
@[simp] theorem State.sinkWrite_freeDraws (s : State) (n : Nat) : (s.sinkWrite n).freeDraws = s.freeDraws := rfl

/-! ### `resetChannels` -/

@[simp] theorem State.resetChannels_p1 (s : State) : s.resetChannels.p1 = PulseChannel.reset := rfl
@[simp] theorem State.resetChannels_p2 (s : State) : s.resetChannels.p2 = PulseChannel.reset := rfl
@[simp] theorem State.resetChannels_w (s : State) : s.resetChannels.w = WaveChannel.reset := rfl
@[simp] theorem State.resetChannels_mst (s : State) :
    s.resetChannels.mst = freeSamples s.freeDraws 0 s.params.frameSampleCount := rfl
@[simp] theorem State.resetChannels_scr (s : State) :
    s.resetChannels.scr = freeSamples (s.freeDraws + 1) 0 s.params.frameSampleCount := rfl
@[simp] theorem State.resetChannels_out (s : State) : s.resetChannels.out = s.out := rfl
@[simp] theorem State.resetChannels_responses (s : State) : s.resetChannels.responses = s.responses := rfl
@[simp] theorem State.resetChannels_params (s : State) : s.resetChannels.params = s.params := rfl
@[simp] theorem State.resetChannels_sink (s : State) : s.resetChannels.sink = s.sink := rfl
@[simp] theorem State.resetChannels_port (s : State) : s.resetChannels.port = s.port := rfl
@[simp] theorem State.resetChannels_freeDraws (s : State) : s.resetChannels.freeDraws = s.freeDraws + 2 := rfl

/-! ### `consumeAnswer`: the listed answer goes, or a free value is counted -/

@[simp] theorem State.consumeAnswer_p1 (s : State) : s.consumeAnswer.p1 = s.p1 := by
  unfold State.consumeAnswer; split <;> rfl
@[simp] theorem State.consumeAnswer_p2 (s : State) : s.consumeAnswer.p2 = s.p2 := by
  unfold State.consumeAnswer; split <;> rfl
@[simp] theorem State.consumeAnswer_w (s : State) : s.consumeAnswer.w = s.w := by
  unfold State.consumeAnswer; split <;> rfl
@[simp] theorem State.consumeAnswer_mst (s : State) : s.consumeAnswer.mst = s.mst := by
  unfold State.consumeAnswer; split <;> rfl
@[simp] theorem State.consumeAnswer_scr (s : State) : s.consumeAnswer.scr = s.scr := by
  unfold State.consumeAnswer; split <;> rfl
@[simp] theorem State.consumeAnswer_out (s : State) : s.consumeAnswer.out = s.out := by
  unfold State.consumeAnswer; split <;> rfl
@[simp] theorem State.consumeAnswer_responses (s : State) : s.consumeAnswer.responses = s.responses := by
  unfold State.consumeAnswer; split <;> rfl
@[simp] theorem State.consumeAnswer_params (s : State) : s.consumeAnswer.params = s.params := by
  unfold State.consumeAnswer; split <;> rfl
@[simp] theorem State.consumeAnswer_port (s : State) : s.consumeAnswer.port = s.port := by
  unfold State.consumeAnswer; split <;> rfl
@[simp] theorem State.consumeAnswer_isOpen (s : State) : s.consumeAnswer.sink.isOpen = s.sink.isOpen := by
  unfold State.consumeAnswer; split <;> rfl
@[simp] theorem State.consumeAnswer_answers (s : State) : s.consumeAnswer.sink.answers = s.sink.answers.tail := by
  unfold State.consumeAnswer; split <;> simp_all
@[simp] theorem State.consumeAnswer_freeDraws (s : State) :
    s.consumeAnswer.freeDraws = if s.sink.answers = [] then s.freeDraws + 1 else s.freeDraws := by
  unfold State.consumeAnswer; split <;> simp_all

/-! ### `withFetchWord`: only the port -/

@[simp] theorem State.withFetchWord_p1 (s : State) (nbits x : Nat) : (s.withFetchWord nbits x).p1 = s.p1 := rfl
@[simp] theorem State.withFetchWord_p2 (s : State) (nbits x : Nat) : (s.withFetchWord nbits x).p2 = s.p2 := rfl
@[simp] theorem State.withFetchWord_w (s : State) (nbits x : Nat) : (s.withFetchWord nbits x).w = s.w := rfl
@[simp] theorem State.withFetchWord_mst (s : State) (nbits x : Nat) : (s.withFetchWord nbits x).mst = s.mst := rfl
@[simp] theorem State.withFetchWord_scr (s : State) (nbits x : Nat) : (s.withFetchWord nbits x).scr = s.scr := rfl
@[simp] theorem State.withFetchWord_out (s : State) (nbits x : Nat) : (s.withFetchWord nbits x).out = s.out := rfl
@[simp] theorem State.withFetchWord_responses (s : State) (nbits x : Nat) : (s.withFetchWord nbits x).responses = s.responses := rfl
@[simp] theorem State.withFetchWord_params (s : State) (nbits x : Nat) : (s.withFetchWord nbits x).params = s.params := rfl
@[simp] theorem State.withFetchWord_sink (s : State) (nbits x : Nat) : (s.withFetchWord nbits x).sink = s.sink := rfl
@[simp] theorem State.withFetchWord_port (s : State) (nbits x : Nat) : (s.withFetchWord nbits x).port = tableWord nbits x :: s.port := rfl
@[simp] theorem State.withFetchWord_freeDraws (s : State) (nbits x : Nat) : (s.withFetchWord nbits x).freeDraws = s.freeDraws := rfl

end Sys2Proof.Machine
end

