-- ==== Sys2Proof/Laws/Ops.lean ====
section
/-! SUPPORT. One lemma per shared operation that says what it can do; proofs cite these and do not unfold. -/

namespace Sys2Proof.Machine

/-! ### Sequencing -/

@[simp] theorem andThen_next {σ φ ρ : Type} (s : σ) (k : σ → Host.Outcome σ φ ρ) :
    andThen (.next s) k = k s := rfl
@[simp] theorem andThen_fault {σ φ ρ : Type} (r : φ) (k : σ → Host.Outcome σ φ ρ) :
    andThen (.fault r) k = .fault r := rfl
@[simp] theorem andThen_refused {σ φ ρ : Type} (r : ρ) (k : σ → Host.Outcome σ φ ρ) :
    andThen (.refused r) k = .refused r := rfl

theorem andThen_eq_next {σ φ ρ : Type} {o : Host.Outcome σ φ ρ} {k : σ → Host.Outcome σ φ ρ} {t : σ} :
    andThen o k = .next t ↔ ∃ s, o = .next s ∧ k s = .next t := by
  cases o <;> simp

theorem andThen_eq_fault {σ φ ρ : Type} {o : Host.Outcome σ φ ρ} {k : σ → Host.Outcome σ φ ρ} {r : φ} :
    andThen o k = .fault r ↔ o = .fault r ∨ ∃ s, o = .next s ∧ k s = .fault r := by
  cases o <;> simp

theorem andThen_eq_refused {σ φ ρ : Type} {o : Host.Outcome σ φ ρ} {k : σ → Host.Outcome σ φ ρ} {r : ρ} :
    andThen o k = .refused r ↔ o = .refused r ∨ ∃ s, o = .next s ∧ k s = .refused r := by
  cases o <;> simp

/-! ### The reload -/

theorem PulseChannel.reload_eq (ch : PulseChannel) :
    ch.reload = { ch with lengthCounter := if ch.lengthEnabled then (ch.lengthLoad.toNat : Int) else ch.lengthCounter } := by
  unfold PulseChannel.reload; split <;> rfl

theorem WaveChannel.reload_eq (ch : WaveChannel) :
    ch.reload = { ch with lengthCounter := if ch.lengthEnabled then (ch.lengthLoad.toNat : Int) else ch.lengthCounter } := by
  unfold WaveChannel.reload; split <;> rfl

/-! ### The state machines of a channel tick -/

theorem envelopeStep_toNat : ∀ (add : Bool) (volume : BitVec 4),
    (envelopeStep add volume).toNat = if add then min 15 (volume.toNat + 3) else volume.toNat - 3 := by
  decide

theorem steppedPlaying_eq (lengthEnabled : Bool) (counter : Int) :
    steppedPlaying lengthEnabled counter true = decide ¬(lengthEnabled = true ∧ counter ≤ 4) := by
  cases lengthEnabled
  · simp [steppedPlaying]
  · by_cases h : counter ≤ 4
    · simp [steppedPlaying, steppedCounter, lengthExpired, h]
    · simp [steppedPlaying, steppedCounter, lengthExpired, h]

/-- A channel that stops does not start again in the same step. -/
theorem steppedPlaying_false (lengthEnabled : Bool) (counter : Int) :
    steppedPlaying lengthEnabled counter false = false := by
  simp [steppedPlaying]

/-! ### Synthesis -/

@[simp] theorem renderSamples_length (pattern : Nat → Nat) (L anchor N : Nat) :
    (renderSamples pattern L anchor N).length = N := by
  simp [renderSamples]

/-- The ramp never exceeds its anchor. -/
theorem ramp_le (T k anchor : Nat) : (T - k) * anchor / T ≤ anchor := by
  rcases Nat.eq_zero_or_pos T with rfl | h
  · simp
  · exact Nat.div_le_of_le_mul (Nat.mul_le_mul_right anchor (Nat.sub_le T k))

/-- A bound of the pattern and the anchor bounds every sample. -/
theorem tiledSample_le {pattern : Nat → Nat} {anchor bound : Nat} (hp : ∀ i, pattern i ≤ bound) (ha : anchor ≤ bound)
    (L N i : Nat) : tiledSample pattern L anchor N i ≤ bound := by
  unfold tiledSample
  split
  · exact hp _
  · exact (ramp_le _ _ _).trans ha

theorem renderSamples_le {pattern : Nat → Nat} {anchor : Nat} (hp : ∀ i, pattern i ≤ 15) (ha : anchor ≤ 15)
    {L N : Nat} : ∀ x ∈ renderSamples pattern L anchor N, x.toNat ≤ 15 := by
  intro x hx
  simp only [renderSamples, List.mem_map, List.mem_range] at hx
  obtain ⟨i, -, rfl⟩ := hx
  have := tiledSample_le hp ha L N i
  simp only [BitVec.toNat_ofNat]
  omega

theorem pulsePattern_le (ch : PulseChannel) (i : Nat) : pulsePattern ch i ≤ 15 := by
  unfold pulsePattern
  have := ch.currentVolume.isLt
  split <;> omega

theorem dividedAmplitude_le (code : BitVec 2) {a : Nat} (h : a ≤ 15) : dividedAmplitude code a ≤ 15 := by
  unfold dividedAmplitude
  split_ifs <;> omega

theorem wavePattern_le (params : Params) (ch : WaveChannel) (i : Nat) : wavePattern params ch i ≤ 15 :=
  dividedAmplitude_le _ (Nat.le_of_lt_succ (BitVec.isLt _))

/-- What `PulseTick` can answer. -/
theorem pulseTick_cases (ch : PulseChannel) (N : Nat) :
    (ch.playing = false ∧ pulseTick ch N = .ok none) ∨
    (ch.playing = true ∧ pulseWaveLength ch.frequency = 0 ∧ pulseTick ch N = .error .zeroWaveLength) ∨
    (ch.playing = true ∧ pulseWaveLength ch.frequency ≠ 0 ∧ ∃ samples, samples.length = N ∧
      (∀ x ∈ samples, x.toNat ≤ 15) ∧ pulseTick ch N = .ok (some (ch.advance, samples))) := by
  unfold pulseTick
  cases h : ch.playing
  · simp
  · by_cases hL : pulseWaveLength ch.frequency = 0
    · simp [hL]
    · refine .inr (.inr ⟨rfl, hL, renderSamples (pulsePattern ch.advance) (pulseWaveLength ch.frequency)
        ch.advance.currentVolume.toNat N, renderSamples_length _ _ _ N, ?_, by simp [hL]⟩)
      exact renderSamples_le (pulsePattern_le _) (Nat.le_of_lt_succ (BitVec.isLt _))

/-- What `WaveTick` can answer. -/
theorem waveTick_cases (params : Params) (ch : WaveChannel) (N : Nat) :
    (ch.playing = false ∧ waveTick params ch N = .ok none) ∨
    (ch.playing = true ∧ waveWaveLength ch.frequency = 0 ∧ waveTick params ch N = .error .zeroWaveLength) ∨
    (ch.playing = true ∧ waveWaveLength ch.frequency ≠ 0 ∧ ∃ samples, samples.length = N ∧
      (∀ x ∈ samples, x.toNat ≤ 15) ∧ waveTick params ch N = .ok (some (ch.advance, samples))) := by
  unfold waveTick
  cases h : ch.playing
  · simp
  · by_cases hL : waveWaveLength ch.frequency = 0
    · simp [hL]
    · refine .inr (.inr ⟨rfl, hL, renderSamples (wavePattern params ch.advance) (waveWaveLength ch.frequency)
        (wavePattern params ch.advance (waveWaveLength ch.frequency - 1)) N, renderSamples_length _ _ _ N, ?_,
        by simp [hL]⟩)
      exact renderSamples_le (wavePattern_le _ _) (wavePattern_le _ _ _)

/-! ### Buffers: every operation keeps their form -/

@[simp] theorem freeSamples_length (draw start count : Nat) : (freeSamples draw start count).length = count := by
  simp [freeSamples]

@[simp] theorem accumulate_length (n : Nat) (master scratch : Buffer) :
    (accumulate n master scratch).length = master.length := by
  induction n generalizing master scratch with
  | zero => simp [accumulate]
  | succ n ih => cases master <;> cases scratch <;> simp [accumulate, ih]

/-- Only the first `n` scratch entries are read. -/
theorem accumulate_append (n : Nat) (master samples rest : Buffer) (h : samples.length = n) :
    accumulate n master (samples ++ rest) = accumulate n master samples := by
  induction n generalizing master samples with
  | zero => simp [accumulate]
  | succ n ih =>
    match master, samples, h with
    | [], _ :: _, _ => simp [accumulate]
    | m :: master, x :: samples, h => simp [accumulate, ih master samples (by simpa using h)]

/-- The master entry at `i` takes a quarter of the scratch entry for `i < n`, and stays beyond. -/
theorem accumulate_getElem? (n : Nat) (master scratch : Buffer) (h : n ≤ scratch.length) (i : Nat) :
    (accumulate n master scratch)[i]? =
      (master[i]?).map fun m => if i < n then BitVec.ofNat 8 (m.toNat + (scratch.getD i 0).toNat / 4) else m := by
  induction n generalizing master scratch i with
  | zero => simp [accumulate]
  | succ n ih =>
    match master, scratch, h with
    | [], _ :: _, _ => simp [accumulate]
    | m :: master, x :: scratch, h =>
      cases i with
      | zero => simp [accumulate]
      | succ i => simpa [accumulate] using ih master scratch (by simpa using h) i

/-- Accumulations of two channels commute. -/
theorem accumulate_comm (n : Nat) (master a b : Buffer) :
    accumulate n (accumulate n master a) b = accumulate n (accumulate n master b) a := by
  induction n generalizing master a b with
  | zero => simp [accumulate]
  | succ n ih =>
    cases master <;> cases a <;> cases b <;> simp [accumulate, ih]
    apply BitVec.eq_of_toNat_eq
    simp only [BitVec.toNat_ofNat]
    omega

/-- Accumulating samples of at most 15 raises a bound by 3. -/
theorem accumulate_le (n bound : Nat) (master scratch : Buffer) (hm : ∀ x ∈ master.take n, x.toNat ≤ bound)
    (hs : ∀ x ∈ scratch.take n, x.toNat ≤ 15) :
    ∀ x ∈ (accumulate n master scratch).take n, x.toNat ≤ bound + 3 := by
  induction n generalizing master scratch with
  | zero => simp
  | succ n ih =>
    cases master with
    | nil => simp [accumulate]
    | cons m master =>
      cases scratch with
      | nil =>
        intro x hx
        exact (hm x (by simpa [accumulate] using hx)).trans (by omega)
      | cons y scratch =>
        simp only [List.take_succ_cons, List.forall_mem_cons] at hm hs
        simp only [accumulate, List.take_succ_cons, List.forall_mem_cons, BitVec.toNat_ofNat]
        refine ⟨?_, ih master scratch hm.2 hs.2⟩
        have h1 := hm.1
        have h2 := hs.1
        exact (Nat.mod_le _ _).trans (by omega)

/-- A buffer in form has exactly `F` samples. -/
theorem Buffer.wf_iff (params : Params) (b : Buffer) :
    Buffer.wf params b = true ↔ b.length = params.frameSampleCount := by
  simp [Buffer.wf]

theorem zeroMaster_wf (s : State) : Buffer.wf s.params s.zeroMaster.mst = true := by
  simp [Buffer.wf_iff]

theorem mixChannel_wf (s : State) (n : Nat) (samples : List Sample) (hn : n ≤ s.params.frameSampleCount)
    (hl : samples.length = n) (hm : Buffer.wf s.params s.mst = true) :
    Buffer.wf s.params (s.mixChannel n samples).mst = true ∧ Buffer.wf s.params (s.mixChannel n samples).scr = true := by
  simp only [Buffer.wf_iff] at hm ⊢
  constructor
  · simp [hm]
  · simp [hl]; omega

theorem resetChannels_wf (s : State) :
    Buffer.wf s.params s.resetChannels.mst = true ∧ Buffer.wf s.params s.resetChannels.scr = true := by
  simp [Buffer.wf_iff]

theorem reset_wf : Buffer.wf State.reset.params State.reset.mst = true ∧
    Buffer.wf State.reset.params State.reset.scr = true := by
  simp [Buffer.wf_iff, State.reset]

/-! ### The mixer's calls -/

/-- What the mixer's call of `P1` can do. -/
theorem tickP1_cases (n : Nat) (s : State) :
    (s.p1.playing = false ∧ tickP1 n s = .next s) ∨
    (s.p1.playing = true ∧ pulseWaveLength s.p1.frequency = 0 ∧ tickP1 n s = .fault .zeroWaveLength) ∨
    (s.p1.playing = true ∧ pulseWaveLength s.p1.frequency ≠ 0 ∧ ∃ samples, samples.length = n ∧
      (∀ x ∈ samples, x.toNat ≤ 15) ∧ pulseTick s.p1 n = .ok (some (s.p1.advance, samples)) ∧
      tickP1 n s = .next ((s.setP1 s.p1.advance).mixChannel n samples)) := by
  rcases pulseTick_cases s.p1 n with ⟨h, e⟩ | ⟨h, hL, e⟩ | ⟨h, hL, samples, hl, hb, e⟩
  · exact .inl ⟨h, by simp [tickP1, e]⟩
  · exact .inr (.inl ⟨h, hL, by simp [tickP1, e]⟩)
  · exact .inr (.inr ⟨h, hL, samples, hl, hb, e, by simp [tickP1, e]⟩)

/-- What the mixer's call of `P2` can do. -/
theorem tickP2_cases (n : Nat) (s : State) :
    (s.p2.playing = false ∧ tickP2 n s = .next s) ∨
    (s.p2.playing = true ∧ pulseWaveLength s.p2.frequency = 0 ∧ tickP2 n s = .fault .zeroWaveLength) ∨
    (s.p2.playing = true ∧ pulseWaveLength s.p2.frequency ≠ 0 ∧ ∃ samples, samples.length = n ∧
      (∀ x ∈ samples, x.toNat ≤ 15) ∧ pulseTick s.p2 n = .ok (some (s.p2.advance, samples)) ∧
      tickP2 n s = .next ((s.setP2 s.p2.advance).mixChannel n samples)) := by
  rcases pulseTick_cases s.p2 n with ⟨h, e⟩ | ⟨h, hL, e⟩ | ⟨h, hL, samples, hl, hb, e⟩
  · exact .inl ⟨h, by simp [tickP2, e]⟩
  · exact .inr (.inl ⟨h, hL, by simp [tickP2, e]⟩)
  · exact .inr (.inr ⟨h, hL, samples, hl, hb, e, by simp [tickP2, e]⟩)

/-- What the mixer's call of `W` can do. -/
theorem tickW_cases (n : Nat) (s : State) :
    (s.w.playing = false ∧ tickW n s = .next s) ∨
    (s.w.playing = true ∧ waveWaveLength s.w.frequency = 0 ∧ tickW n s = .fault .zeroWaveLength) ∨
    (s.w.playing = true ∧ waveWaveLength s.w.frequency ≠ 0 ∧ ∃ samples, samples.length = n ∧
      (∀ x ∈ samples, x.toNat ≤ 15) ∧ waveTick s.params s.w n = .ok (some (s.w.advance, samples)) ∧
      tickW n s = .next ((s.setW s.w.advance).mixChannel n samples)) := by
  rcases waveTick_cases s.params s.w n with ⟨h, e⟩ | ⟨h, hL, e⟩ | ⟨h, hL, samples, hl, hb, e⟩
  · exact .inl ⟨h, by simp [tickW, e]⟩
  · exact .inr (.inl ⟨h, hL, by simp [tickW, e]⟩)
  · exact .inr (.inr ⟨h, hL, samples, hl, hb, e, by simp [tickW, e]⟩)

/-- The mixer tick answers next through three channel ticks and the write. -/
theorem mixerTick_eq_next {n : Nat} {s t : State} :
    mixerTick n s = .next t ↔ ∃ s1 s2 s3, tickP1 n s.zeroMaster = .next s1 ∧ tickP2 n s1 = .next s2 ∧
      tickW n s2 = .next s3 ∧ t = (s3.sinkWrite n).respond .ok := by
  simp only [mixerTick, andThen_eq_next, Host.Outcome.next.injEq]
  constructor
  · rintro ⟨s1, h1, s2, h2, s3, h3, rfl⟩
    exact ⟨s1, s2, s3, h1, h2, h3, rfl⟩
  · rintro ⟨s1, s2, s3, h1, h2, h3, rfl⟩
    exact ⟨s1, h1, s2, h2, s3, h3, rfl⟩

/-- TICK answers next through an open sink, a capacity and the mixer tick. -/
theorem execTick_eq_next {s t : State} :
    execTick s = .next t ↔ s.sink.isOpen = true ∧ ∃ cap, sinkCapacity s = some cap ∧
      mixerTick (min cap s.params.frameSampleCount) s.consumeAnswer = .next t := by
  unfold execTick
  cases s.sink.isOpen <;> cases sinkCapacity s <;> simp

/-- What a TICK that answers next did, but for the samples and the scratch buffer: the sink was open and answered, each
playing channel advanced, the block went to the history. -/
theorem execTick_next_effect {s t : State} (h : execTick s = .next t) :
    ∃ cap, s.sink.isOpen = true ∧ sinkCapacity s = some cap ∧
      t.p1 = (if s.p1.playing then s.p1.advance else s.p1) ∧ t.p2 = (if s.p2.playing then s.p2.advance else s.p2) ∧
      t.w = (if s.w.playing then s.w.advance else s.w) ∧
      t.out = s.out ++ [t.mst.take (min cap s.params.frameSampleCount)] ∧
      t.responses = s.responses ++ [.ok] ∧ t.params = s.params ∧ t.port = s.port ∧ t.sink = s.consumeAnswer.sink := by
  obtain ⟨ho, cap, hc, h⟩ := execTick_eq_next.1 h
  obtain ⟨s1, s2, s3, h1, h2, h3, rfl⟩ := mixerTick_eq_next.1 h
  refine ⟨cap, ho, hc, ?_⟩
  rcases tickP1_cases (min cap s.params.frameSampleCount) s.consumeAnswer.zeroMaster with
    ⟨p, e⟩ | ⟨p, -, e⟩ | ⟨p, -, x, -, -, -, e⟩ <;> rw [e] at h1 <;> cases h1 <;>
  rcases tickP2_cases (min cap s.params.frameSampleCount) _ with
    ⟨q, e⟩ | ⟨q, -, e⟩ | ⟨q, -, y, -, -, -, e⟩ <;> rw [e] at h2 <;> cases h2 <;>
  rcases tickW_cases (min cap s.params.frameSampleCount) _ with
    ⟨r, e⟩ | ⟨r, -, e⟩ | ⟨r, -, z, -, -, -, e⟩ <;> rw [e] at h3 <;> cases h3 <;>
  simp at p q r <;> simp [p, q, r]

/-! ### One step -/

theorem step_of_port {s : State} {word : CommandWord} {rest : List CommandWord} (h : s.port = word :: rest) :
    step s = match decode word with
      | some i => exec i { s with port := rest }
      | none => .refused (.reservedCommand word) := by
  cases hd : decode word <;> simp [step, fetchCommand, h, hd]

theorem step_of_no_command {s : State} (h : s.port = []) : step s = .next s := by
  simp only [step, fetchCommand, h]

/-- A step that answers next is an idle step or ran a command of the port. -/
theorem step_eq_next {s t : State} (h : step s = .next t) :
    (s.port = [] ∧ t = s) ∨ ∃ word rest i, s.port = word :: rest ∧ decode word = some i ∧
      exec i { s with port := rest } = .next t := by
  cases hp : s.port with
  | nil => left; rw [step_of_no_command hp] at h; exact ⟨rfl, by cases h; rfl⟩
  | cons word rest =>
    right
    rw [step_of_port hp] at h
    cases hd : decode word with
    | none => simp [hd] at h
    | some i => exact ⟨word, rest, i, rfl, hd, by simpa [hd] using h⟩

/-- A run of one step more is the step and then the run. -/
theorem core_run_succ (k : Nat) (s : State) :
    Sys2Proof.core.run (k + 1) s = andThen (step s) fun t => Sys2Proof.core.run k t := by
  have h : Sys2Proof.core.step s = step s := rfl
  simp only [Host.Core.run, h]
  cases step s <;> rfl

end Sys2Proof.Machine
end

