-- ==== Sys2Proof/Laws/PerInstr.lean ====
section
/-! SUPPORT. Laws of the instruction as syntax, one lemma per constructor. -/

namespace Sys2Proof.Laws.MatchesRow

/-- The word of a command selects the command's own row of the opcode map: `word & mask = match` (R121). -/
def Statement (i : Instr) : Prop := encode i &&& (opcodeRow i).2 = (opcodeRow i).1

/-- A WRC word under the mask `0xFF00` keeps its high byte and drops the value. -/
theorem wrcWord_masked (ch : BitVec 2) (idx : BitVec 3) (value : Byte) :
    wrcWord ch idx value &&& 0xFF00#16 = wrcWord ch idx 0 := by
  have split : (0xFF00#16 : BitVec 16) = (0xFF#8 ++ 0x00#8 : BitVec 16) := by decide
  unfold wrcWord
  rw [split]
  show ((0b00#2 ++ ch ++ 0b0#1 ++ idx : BitVec 8) ++ value : BitVec 16) &&& (0xFF#8 ++ 0x00#8 : BitVec 16) =
    ((0b00#2 ++ ch ++ 0b0#1 ++ idx : BitVec 8) ++ 0#8 : BitVec 16)
  rw [BitVec.and_append]
  have high : ∀ x : BitVec 8, x &&& 0xFF#8 = x := fun x => BitVec.and_allOnes
  have low : ∀ x : BitVec 8, x &&& 0x00#8 = 0#8 := fun x => BitVec.and_zero
  rw [high, low]

theorem wrcP1_0 (v : Byte) : Statement (.wrcP1_0 v) := wrcWord_masked 0 0 v
theorem wrcP1_1 (v : Byte) : Statement (.wrcP1_1 v) := wrcWord_masked 0 1 v
theorem wrcP1_2 (v : Byte) : Statement (.wrcP1_2 v) := wrcWord_masked 0 2 v
theorem wrcP1_3 (v : Byte) : Statement (.wrcP1_3 v) := wrcWord_masked 0 3 v
theorem wrcP1_4 (v : Byte) : Statement (.wrcP1_4 v) := wrcWord_masked 0 4 v
theorem wrcP2_0 (v : Byte) : Statement (.wrcP2_0 v) := wrcWord_masked 1 0 v
theorem wrcP2_1 (v : Byte) : Statement (.wrcP2_1 v) := wrcWord_masked 1 1 v
theorem wrcP2_2 (v : Byte) : Statement (.wrcP2_2 v) := wrcWord_masked 1 2 v
theorem wrcP2_3 (v : Byte) : Statement (.wrcP2_3 v) := wrcWord_masked 1 3 v
theorem wrcP2_4 (v : Byte) : Statement (.wrcP2_4 v) := wrcWord_masked 1 4 v
theorem wrcW_0 (v : Byte) : Statement (.wrcW_0 v) := wrcWord_masked 2 0 v
theorem wrcW_1 (v : Byte) : Statement (.wrcW_1 v) := wrcWord_masked 2 1 v
theorem wrcW_2 (v : Byte) : Statement (.wrcW_2 v) := wrcWord_masked 2 2 v
theorem wrcW_3 (v : Byte) : Statement (.wrcW_3 v) := wrcWord_masked 2 3 v
theorem wrcW_4 (v : Byte) : Statement (.wrcW_4 v) := wrcWord_masked 2 4 v

theorem wwt (widx : BitVec 6) (v : Byte) : Statement (.wwt widx v) := by
  have split : (0xC000#16 : BitVec 16) = (0b11#2 ++ 0#6 ++ 0#8 : BitVec 16) := by decide
  show wwtWord widx v &&& 0xC000#16 = 0x4000#16
  unfold wwtWord
  rw [split]
  show ((0b01#2 ++ widx : BitVec 8) ++ v : BitVec 16) &&& ((0b11#2 ++ 0#6 : BitVec 8) ++ 0#8 : BitVec 16) = 0x4000#16
  rw [BitVec.and_append, BitVec.and_append, BitVec.and_zero, BitVec.and_zero]
  decide

theorem tick : Statement .tick := by unfold Statement; decide
theorem reset : Statement .reset := by unfold Statement; decide

end Sys2Proof.Laws.MatchesRow
end

