-- ==== Sys2Proof/Tests/Slice0.lean ====
section
/-! SUPPORT. Tests: the refusals of `wellFormed`, words written out from the spec's formats, one step of each command
with the values of the spec's vectors (`spec/95_test_vectors.md`), and a witness for the hypotheses of each statement. -/

namespace Sys2Proof.Tests

open Sys2Proof Sys2Proof.Machine Sys2Proof.Rules

/-! ### Helpers -/

/-- The outcome is a next state with a property. -/
def nextHas (o : Host.Outcome State Fault Refusal) (p : State → Bool) : Bool :=
  match o with
  | .next t => p t
  | _ => false

theorem of_nextHas {o : Host.Outcome State Fault Refusal} {p : State → Bool} (h : nextHas o p = true) :
    ∃ t, o = .next t ∧ p t = true := by
  cases o with
  | next t => exact ⟨t, rfl, h⟩
  | fault r => simp [nextHas] at h
  | refused r => simp [nextHas] at h

/-- A fresh block with `F` samples a tick, its buffers filled with 7, and a sink that will answer `answers`. -/
def fresh (F : Nat) (answers : List Int) : State :=
  { State.reset with
    params := { frameSampleCount := F, stepIndex := [] }
    mst := List.replicate F 7
    scr := List.replicate F 7
    sink := { isOpen := true, answers := answers } }

/-- A playing pulse channel, length and envelope off. -/
def note (duty : BitVec 2) (volume : BitVec 4) (frequency : BitVec 11) : PulseChannel :=
  { PulseChannel.reset with duty := duty, currentVolume := volume, frequency := frequency, playing := true }

/-- Table A of the spec's vectors. -/
def tableA : Vector Nibble 32 :=
  #v[0, 1, 2, 3, 4, 5, 6, 7, 8, 9, 10, 11, 12, 13, 14, 15, 0, 1, 2, 3, 4, 5, 6, 7, 8, 9, 10, 11, 12, 13, 14, 15]

/-- A playing wave channel over Table A, length off. -/
def waveNote (code : BitVec 2) (frequency : BitVec 11) : WaveChannel :=
  { WaveChannel.reset with volumeCode := code, frequency := frequency, playing := true, table := tableA }

/-- A channel in the middle of a note with length on: the start of T40-7. -/
def midNote : PulseChannel :=
  { note 0 0 0x6D6 with lengthEnabled := true, lengthLoad := 10, lengthCounter := 2 }

/-- The wave channel of T40-13 and T40-17, playing. -/
def midWave : WaveChannel :=
  { waveNote 1 2000 with lengthEnabled := true, lengthLoad := 200, lengthCounter := 12 }

/-- Every channel playing, program C's second tick. -/
def busy (answers : List Int) : State :=
  { fresh 40 answers with
    p1 := note 2 12 2000
    p2 := note 2 8 2000
    w := { waveNote 1 2024 with table := (Vector.replicate 32 0).set 0 15 |>.set 1 15 |>.set 2 15 |>.set 3 15 } }

/-! ### Well-formedness: one ill-formed line for each check -/

theorem test_wellFormed_refuses_index_5 : (WrittenCommand.wrc .p1 5 0).wellFormed = false := by decide
theorem test_wellFormed_refuses_value_256 : (WrittenCommand.wrc .w 4 256).wellFormed = false := by decide
theorem test_wellFormed_refuses_wave_index_64 : (WrittenCommand.wwt 64 0).wellFormed = false := by decide
theorem test_wellFormed_refuses_wave_value_256 : (WrittenCommand.wwt 0 256).wellFormed = false := by decide
theorem test_wellFormed_refuses_frequency_2048 : (WrittenCommand.trig .p1 2048 0).wellFormed = false := by decide
theorem test_wellFormed_refuses_length_bit_2 : (WrittenCommand.trig .p2 0 2).wellFormed = false := by decide
theorem test_wellFormed_refuses_15_bytes :
    (WrittenCommand.wave16 (List.replicate 15 0)).wellFormed = false := by decide
theorem test_wellFormed_refuses_wave_byte_256 :
    (WrittenCommand.wave16 (256 :: List.replicate 15 0)).wellFormed = false := by decide
theorem test_wellFormed_accepts_the_rest :
    (WrittenCommand.wrc .w 4 255).wellFormed = true ∧ (WrittenCommand.wwt 63 255).wellFormed = true ∧
      WrittenCommand.tick.wellFormed = true ∧ WrittenCommand.reset.wellFormed = true ∧
      (WrittenCommand.trig .w 2047 1).wellFormed = true ∧
      (WrittenCommand.wave16 (List.replicate 16 255)).wellFormed = true := by decide

/-! ### Decoding: a word of every row, written out from R101 to R106 -/

theorem test_decode_p1 :
    decode 0b0000000011111111#16 = some (.wrcP1_0 0xFF) ∧ decode 0b0000000110111111#16 = some (.wrcP1_1 0xBF) ∧
      decode 0b0000001011111011#16 = some (.wrcP1_2 0xFB) ∧ decode 0b0000001111010110#16 = some (.wrcP1_3 0xD6) ∧
      decode 0b0000010011000110#16 = some (.wrcP1_4 0xC6) := by decide
theorem test_decode_p2 :
    decode 0b0001000000000001#16 = some (.wrcP2_0 0x01) ∧ decode 0b0001000101000001#16 = some (.wrcP2_1 0x41) ∧
      decode 0b0001001010000000#16 = some (.wrcP2_2 0x80) ∧ decode 0b0001001111010000#16 = some (.wrcP2_3 0xD0) ∧
      decode 0b0001010010000111#16 = some (.wrcP2_4 0x87) := by decide
theorem test_decode_w :
    decode 0b0010000010000000#16 = some (.wrcW_0 0x80) ∧ decode 0b0010000111111111#16 = some (.wrcW_1 0xFF) ∧
      decode 0b0010001000100000#16 = some (.wrcW_2 0x20) ∧ decode 0b0010001111101000#16 = some (.wrcW_3 0xE8) ∧
      decode 0b0010010011000111#16 = some (.wrcW_4 0xC7) := by decide
theorem test_decode_wwt :
    decode 0b0100001110101011#16 = some (.wwt 3 0xAB) ∧ decode 0b0101000011001101#16 = some (.wwt 16 0xCD) ∧
      decode 0b0111111100000000#16 = some (.wwt 63 0) := by decide
theorem test_decode_tick_reset :
    decode 0b1000000000000000#16 = some .tick ∧ decode 0b1100000000000000#16 = some .reset := by decide
/-- T40-18: index 5, bit 11, channel 3, low bits of TICK and RESET. -/
theorem test_decode_reserved :
    decode 0x0500#16 = none ∧ decode 0x0800#16 = none ∧ decode 0x3000#16 = none ∧ decode 0x8001#16 = none ∧
      decode 0xC100#16 = none := by decide
theorem test_decodeTableWord :
    decodeTableWord 16 0x43AB = some (.wwt 3 0xAB) ∧ decodeTableWord 16 0x0500 = none ∧
      decodeTableWord 24 0x43AB = none := by decide
/-- T40-19. -/
theorem test_assemble_trig : (assemble (.trig .p1 1750 1)).map (List.map encode) = some [0x03D6#16, 0x04C6#16] := by
  decide
/-- Program B, the first bytes and the last. -/
theorem test_assemble_wave16 :
    ((assemble (.wave16 [0x01, 0x23, 0x45, 0x67, 0x89, 0xAB, 0xCD, 0xEF, 0xFE, 0xDC, 0xBA, 0x98, 0x76, 0x54, 0x32,
      0x10])).map (List.map encode)) = some [0x4001#16, 0x4123#16, 0x4245#16, 0x4367#16, 0x4489#16, 0x45AB#16,
      0x46CD#16, 0x47EF#16, 0x48FE#16, 0x49DC#16, 0x4ABA#16, 0x4B98#16, 0x4C76#16, 0x4D54#16, 0x4E32#16,
      0x4F10#16] := by decide

/-! ### One step of each write (T40-1 to T40-17) -/

/-- T40-8. -/
theorem test_wrcP1_0 : nextHas (exec (.wrcP1_0 0xFF) { fresh 8 [] with p1 := midNote })
    (fun t => decide (t.p1 = midNote)) = true := by decide
/-- T40-8, on the other channel. -/
theorem test_wrcP2_0 : nextHas (exec (.wrcP2_0 0xFF) { fresh 8 [] with p2 := midNote })
    (fun t => decide (t.p2 = midNote)) = true := by decide
/-- T40-1. -/
theorem test_wrcP1_1 : nextHas (exec (.wrcP1_1 0xBF) (fresh 8 []))
    (fun t => decide (t.p1.duty = 2 ∧ t.p1.lengthLoad = 63 ∧ t.p1.lengthCounter = 0)) = true := by decide
/-- T40-9. -/
theorem test_wrcP1_1_reloads_the_new_load : nextHas (exec (.wrcP1_1 0x03) { fresh 8 [] with p1 := midNote })
    (fun t => decide (t.p1.duty = 0 ∧ t.p1.lengthLoad = 3 ∧ t.p1.lengthCounter = 3)) = true := by decide
/-- T40-2. -/
theorem test_wrcP2_1 : nextHas (exec (.wrcP2_1 0x41) (fresh 8 []))
    (fun t => decide (t.p2.duty = 1 ∧ t.p2.lengthLoad = 1 ∧ t.p1 = PulseChannel.reset)) = true := by decide
/-- T40-3. -/
theorem test_wrcP1_2 : nextHas (exec (.wrcP1_2 0xFB) (fresh 8 []))
    (fun t => decide (t.p1.startingVolume = 15 ∧ t.p1.currentVolume = 15 ∧ t.p1.envelopeAdd = true ∧
      t.p1.envelopePeriod = 3)) = true := by decide
/-- T40-4. -/
theorem test_wrcP2_2 : nextHas
    (exec (.wrcP2_2 0x51) { fresh 8 [] with p2 := { note 0 3 0 with startingVolume := 12, envelopeAdd := true } })
    (fun t => decide (t.p2.startingVolume = 5 ∧ t.p2.currentVolume = 5 ∧ t.p2.envelopeAdd = false ∧
      t.p2.envelopePeriod = 1)) = true := by decide
/-- T40-7. -/
theorem test_wrcP1_3 : nextHas (exec (.wrcP1_3 0xD1) { fresh 8 [] with p1 := midNote })
    (fun t => decide (t.p1.frequency = 0x6D1 ∧ t.p1.lengthCounter = 10)) = true := by decide
/-- T40-5, first write. -/
theorem test_wrcP2_3 : nextHas (exec (.wrcP2_3 0xD6) (fresh 8 []))
    (fun t => decide (t.p2.frequency = 214 ∧ t.p2.lengthCounter = 0)) = true := by decide
/-- T40-5, second write. -/
theorem test_wrcP1_4 : nextHas (exec (.wrcP1_4 0xC6) { fresh 8 [] with p1 := { PulseChannel.reset with frequency := 0x0D6 } })
    (fun t => decide (t.p1.frequency = 1750 ∧ t.p1.playing = true ∧ t.p1.lengthEnabled = true ∧
      t.p1.lengthCounter = 0)) = true := by decide
/-- T40-6. -/
theorem test_wrcP2_4 : nextHas (exec (.wrcP2_4 0x3F) { fresh 8 [] with p2 := midNote })
    (fun t => decide (t.p2.frequency = 2006 ∧ t.p2.playing = false ∧ t.p2.lengthEnabled = false ∧
      t.p2.lengthCounter = 2)) = true := by decide
/-- T40-13. -/
theorem test_wrcW_0 : nextHas (exec (.wrcW_0 0x00) { fresh 8 [] with w := midWave })
    (fun t => decide (t.w.dacPower = false ∧ t.w.lengthCounter = 200)) = true := by decide
/-- T40-11. -/
theorem test_wrcW_1 : nextHas (exec (.wrcW_1 0xFF) (fresh 8 []))
    (fun t => decide (t.w.lengthLoad = 255 ∧ t.w.lengthCounter = 0)) = true := by decide
/-- T40-12, a value with every other bit set. -/
theorem test_wrcW_2 : nextHas (exec (.wrcW_2 0x9F) { fresh 8 [] with w := midWave })
    (fun t => decide (t.w.volumeCode = 0)) = true ∧
    nextHas (exec (.wrcW_2 0x40) (fresh 8 [])) (fun t => decide (t.w.volumeCode = 2)) = true := by decide
/-- Program C. -/
theorem test_wrcW_3 : nextHas (exec (.wrcW_3 0xE8) (fresh 8 []))
    (fun t => decide (t.w.frequency = 0x0E8)) = true := by decide
/-- T42-5: the trigger that starts a note with length on. -/
theorem test_wrcW_4 : nextHas
    (exec (.wrcW_4 0xC7) { fresh 8 [] with w := { WaveChannel.reset with frequency := 0xD0, lengthLoad := 255 } })
    (fun t => decide (t.w.frequency = 2000 ∧ t.w.playing = true ∧ t.w.lengthCounter = 255)) = true := by decide
/-- T40-14. -/
theorem test_wwt : nextHas (exec (.wwt 3 0xAB) (fresh 8 []))
    (fun t => decide (t.w.table[6] = 10 ∧ t.w.table[7] = 11 ∧ t.w.table[5] = 0 ∧ t.w.table[8] = 0 ∧
      t.responses = [.ok])) = true := by decide
/-- T40-15, and T40-17's counter. -/
theorem test_wwt_index_16 : nextHas (exec (.wwt 16 0xCD) { fresh 8 [] with w := midWave })
    (fun t => decide (t.w = midWave ∧ t.responses = [.invalidArgument 16])) = true := by decide

/-! ### The channel ticks (T41, T42) -/

/-- A pulse tick's samples as numbers. -/
def pulseSamples (ch : PulseChannel) (N : Nat) : Option (List Nat) :=
  match pulseTick ch N with
  | .ok (some (_, samples)) => some (samples.map BitVec.toNat)
  | _ => none

/-- A wave tick's samples as numbers, exact arithmetic. -/
def waveSamples (ch : WaveChannel) (N : Nat) : Option (List Nat) :=
  match waveTick { frameSampleCount := N, stepIndex := [] } ch N with
  | .ok (some (_, samples)) => some (samples.map BitVec.toNat)
  | _ => none

/-- T41-1, duty 2: the pattern twice and the ramp. -/
theorem test_pulse_pattern_and_ramp : pulseSamples (note 2 12 2000) 40 =
    some [0, 0, 0, 0, 12, 12, 12, 12, 12, 12, 12, 12, 0, 0, 0, 0, 0, 0, 0, 0, 12, 12, 12, 12, 12, 12, 12, 12, 0, 0,
      0, 0, 12, 10, 9, 7, 6, 4, 3, 1] := by decide
/-- T41-2: one period of each duty. -/
theorem test_pulse_duties : pulseSamples (note 0 15 2024) 8 = some [0, 0, 15, 0, 0, 0, 0, 0] ∧
    pulseSamples (note 1 15 2024) 8 = some [0, 0, 15, 15, 0, 0, 0, 0] ∧
    pulseSamples (note 2 15 2024) 8 = some [0, 0, 15, 15, 15, 15, 0, 0] ∧
    pulseSamples (note 3 15 2024) 8 = some [0, 15, 15, 15, 15, 15, 15, 0] := by decide
/-- T41-3: step indexes that skip. -/
theorem test_pulse_uneven_steps : pulseSamples (note 2 15 2018) 25 =
    some [0, 0, 0, 15, 15, 15, 15, 15, 0, 0, 0, 0, 0, 15, 15, 15, 15, 15, 0, 0, 15, 12, 9, 6, 3] := by decide
/-- T41-11: a short request, and a tail of one sample. -/
theorem test_pulse_short_request : pulseSamples (note 2 15 2000) 10 = some [0, 0, 0, 0, 15, 15, 15, 15, 15, 15] ∧
    pulseSamples (note 2 15 2000) 17 = some [0, 0, 0, 0, 15, 15, 15, 15, 15, 15, 15, 15, 0, 0, 0, 0, 15] := by decide
/-- T41-6 and T41-7: the envelope by 3, clamped. -/
theorem test_envelope : envelopeStep false 5 = 2 ∧ envelopeStep false 2 = 0 ∧ envelopeStep true 14 = 15 ∧
    envelopeStep true 5 = 8 := by decide
/-- T42-1, codes 1 and 3. -/
theorem test_wave_codes : waveSamples (waveNote 1 2000) 40 =
      some [0, 1, 2, 3, 4, 5, 6, 7, 8, 9, 10, 11, 12, 13, 14, 15, 0, 1, 2, 3, 4, 5, 6, 7, 8, 9, 10, 11, 12, 13, 14,
        15, 15, 13, 11, 9, 7, 5, 3, 1] ∧
    waveSamples (waveNote 3 2000) 40 =
      some [0, 0, 0, 0, 1, 1, 1, 1, 2, 2, 2, 2, 3, 3, 3, 3, 0, 0, 0, 0, 1, 1, 1, 1, 2, 2, 2, 2, 3, 3, 3, 3, 3, 2, 2,
        1, 1, 1, 0, 0] := by decide
/-- T42-2: entries that are skipped. -/
theorem test_wave_uneven_entries : waveSamples (waveNote 1 2018) 25 =
    some [0, 1, 3, 4, 6, 8, 9, 11, 12, 14, 0, 1, 3, 4, 6, 8, 9, 11, 12, 14, 14, 11, 8, 5, 2] := by decide
/-- T42-7: the point at which binary64 gives 29 and exact arithmetic 30. -/
theorem test_stepIndex : (waveEntry { frameSampleCount := 1, stepIndex := [] } 1992 35).toNat = 30 ∧
    (waveEntry { frameSampleCount := 1, stepIndex := binary64StepIndex } 1992 35).toNat = 29 := by decide

/-! ### TICK and RESET (T43, T44, programs C and D) -/

/-- T43-1. -/
theorem test_tick_block : nextHas (exec .tick { fresh 40 [50] with p1 := note 2 12 2000 })
    (fun t => decide (t.out.map (List.map BitVec.toNat) = [[0, 0, 0, 0, 3, 3, 3, 3, 3, 3, 3, 3, 0, 0, 0, 0, 0, 0, 0,
      0, 3, 3, 3, 3, 3, 3, 3, 3, 0, 0, 0, 0, 3, 2, 2, 1, 1, 1, 0, 0]] ∧ t.p1.ticks = 1 ∧ t.sink.answers = [])) =
    true := by decide
/-- Program C, TICK 4: three channels, a request of 25 samples. -/
theorem test_tick_mix : nextHas (exec .tick (busy [25]))
    (fun t => decide (t.out.map (List.map BitVec.toNat) = [[3, 3, 0, 0, 5, 5, 5, 5, 5, 5, 5, 5, 0, 0, 0, 0, 5, 3, 3,
      3, 2, 1, 1, 0, 0]])) = true := by decide
/-- Program C, TICK 3: no room, and the channels advance. -/
theorem test_tick_no_room : nextHas (exec .tick (busy [0]))
    (fun t => decide (t.out = [[]] ∧ t.p1.ticks = 1 ∧ t.p2.ticks = 1 ∧ t.w.ticks = 1)) = true := by decide
/-- Program D, the first TICK, as a step from its word. -/
theorem test_step_tick : nextHas (step (State.withFetchWord
      { fresh 8 [8] with p1 := { note 1 15 2024 with lengthEnabled := true, lengthLoad := 1, lengthCounter := 1 } }
      16 0x8000))
    (fun t => decide (t.out.map (List.map BitVec.toNat) = [[0, 0, 3, 3, 0, 0, 0, 0]] ∧ t.p1.lengthCounter = -3 ∧
      t.p1.playing = false ∧ t.port = [])) = true := by decide
/-- T43-7: the fault, with no room as well. -/
theorem test_tick_faults :
    (exec .tick { fresh 8 [0] with p2 := note 0 15 2047 } = .fault .zeroWaveLength) ∧
      (exec .tick { fresh 8 [8] with w := waveNote 1 2047 } = .fault .zeroWaveLength) := ⟨rfl, rfl⟩
/-- R237: a closed sink, a negative answer, a reserved word. -/
theorem test_refusals :
    (exec .tick { fresh 8 [8] with sink := { isOpen := false, answers := [8] } } = .refused .sinkClosed) ∧
      (exec .tick (fresh 8 [-1]) = .refused .negativeCapacity) ∧
      (step ((fresh 8 []).withFetchWord 16 0x3000) = .refused (.reservedCommand 0x3000)) := ⟨rfl, rfl, rfl⟩
/-- T44-1. -/
theorem test_reset : nextHas (exec .reset { busy [] with out := [[1]] })
    (fun t => decide (t.p1 = PulseChannel.reset ∧ t.p2 = PulseChannel.reset ∧ t.w = WaveChannel.reset ∧
      t.out = [[1]])) = true := by decide
/-- The first command after power-on. -/
theorem test_first_step : nextHas (step (State.reset.withFetchWord 16 0x43AB))
    (fun t => decide (t.w.table[6] = 10 ∧ t.responses = [.ok])) = true := by decide

/-! ### Witnesses: states and operands that meet the hypotheses of each statement, clause by clause -/

theorem witness_DecodedWordsEncodeBack : decode 0x0000#16 = some (.wrcP1_0 0) ∧ decode 0x7FFF#16 = some (.wwt 63 255) := by
  decide
theorem witness_OpcodeRowsAreDisjointAndComplete :
    0x24FF#16 &&& (opcodeRow (.wrcW_4 0)).2 = (opcodeRow (.wrcW_4 0)).1 ∧
      0x24FF#16 &&& (opcodeRow (.wrcW_4 9)).2 = (opcodeRow (.wrcW_4 9)).1 ∧ decode 0x24FF#16 = some (.wrcW_4 255) := by
  decide
theorem witness_TrigStartsTheChannelAtItsFrequency : (2047 ≤ 2047 ∧ 1 ≤ 1) ∧ (0 ≤ 2047 ∧ 0 ≤ 1) := by decide
theorem witness_Wave16FillsTheTable :
    (List.replicate 16 255).length = 16 ∧ ∀ b ∈ List.replicate 16 255, b ≤ 255 := by decide
theorem witness_StepRunsTheDecodedCommand :
    ((fresh 8 []).withFetchWord 16 0x8000).port = 0x8000#16 :: [] ∧ decode 0x8000#16 = some .tick := by decide
theorem witness_StepRefusesReservedWords :
    ((fresh 8 []).withFetchWord 16 0xFFFF).port = 0xFFFF#16 :: [] ∧ decode 0xFFFF#16 = none := by decide
theorem witness_StepWithoutACommandChangesNothing : State.reset.port = [] := by decide
theorem witness_WaveTableByteWrite : (15#6).toNat ≤ 15 ∧ (0#6).toNat ≤ 15 := by decide
theorem witness_WaveTableIndexAbove15IsInvalidArgument : 16 ≤ (16#6).toNat ∧ 16 ≤ (63#6).toNat := by decide
theorem witness_PulseWritesReloadTheLengthCounter :
    writesP1 (.wrcP1_1 3) = true ∧ writesP1 (.wrcP1_4 0xC7) = true ∧ writesP2 (.wrcP2_2 0) = true ∧
      Instr.wrcP1_0 7 = .wrcP1_0 7 := by decide
theorem witness_WaveWritesReloadTheLengthCounter : writesW (.wrcW_0 0) = true ∧ writesW (.wrcW_4 0xC7) = true := by decide
/-- A write that reloads, twice, and RESET, twice. -/
theorem witness_RepeatedWritesAddNothing :
    (∃ t u, Instr.wrcP1_3 1 ≠ .tick ∧ exec (.wrcP1_3 1) { fresh 8 [] with p1 := midNote } = .next t ∧
      exec (.wrcP1_3 1) t = .next u ∧ Instr.wrcP1_3 1 ≠ .reset) ∧
    (∃ t u, Instr.reset ≠ .tick ∧ exec .reset (busy []) = .next t ∧ exec .reset t = .next u) :=
  ⟨⟨_, _, by decide, rfl, rfl, by decide⟩, ⟨_, _, by decide, rfl, rfl⟩⟩
theorem witness_RegisterWritesTouchOnlyChannelFields : Instr.wwt 3 0 ≠ .tick ∧ Instr.wwt 3 0 ≠ .reset := by decide
theorem witness_WritesAndResetAlwaysComplete : Instr.wwt 63 255 ≠ .tick ∧ Instr.reset ≠ .tick := by decide
/-- A silent channel at a frequency whose tick would fault, beside a playing one. -/
theorem witness_SilentPulseChannelsAreLeftAlone :
    PulseChannel.reset.playing = false ∧ ∃ s t, exec .tick s = .next t ∧ s.p1.playing = false ∧ s.p2.playing = false ∧
      s.p1.frequency = 2047 ∧ s.w.playing = true :=
  ⟨rfl, { busy [5] with p1 := { PulseChannel.reset with frequency := 2047 }, p2 := PulseChannel.reset },
    (of_nextHas (p := fun _ => true) (by decide)).imp fun _ h => ⟨h.1, rfl, rfl, rfl, rfl⟩⟩
theorem witness_SilentWaveChannelIsLeftAlone :
    WaveChannel.reset.playing = false ∧ ∃ s t, exec .tick s = .next t ∧ s.w.playing = false ∧ s.w.dacPower = true :=
  ⟨rfl, { busy [5] with w := { WaveChannel.reset with dacPower := true } },
    (of_nextHas (p := fun _ => true) (by decide)).imp fun _ h => ⟨h.1, rfl, rfl⟩⟩
/-- The least and the greatest frequency a pulse tick renders, and a request shorter than a period. -/
theorem witness_PulseTickFollowsItsRule :
    (note 2 15 2045).playing = true ∧ (note 2 15 2045).frequency.toNat ≤ 2045 ∧ (note 3 15 0).playing = true ∧
      (note 3 15 0).frequency.toNat ≤ 2045 ∧ pulseSamples (note 2 15 2045) 5 = some [0, 0, 0, 0, 0] ∧
      pulseSamples (note 3 15 0) 2 = some [0, 0] := by decide
/-- T42-4, and a frequency of 0. -/
theorem witness_WaveTickFollowsItsRule :
    (waveNote 1 2046).playing = true ∧ (waveNote 1 2046).frequency.toNat ≤ 2046 ∧ (waveNote 1 0).playing = true ∧
      (waveNote 1 0).frequency.toNat ≤ 2046 ∧
      waveSamples { waveNote 1 2046 with table := tableA.set 0 9 } 5 = some [9, 9, 9, 9, 9] := by decide
/-- Both sides of each equivalence, at the boundary frequencies. -/
theorem witness_ChannelTicksFaultOnZeroWaveLength :
    ((note 0 0 2046).playing = true ∧ 2046 ≤ (note 0 0 2046).frequency.toNat) ∧ 2046 ≤ (note 0 0 2047).frequency.toNat ∧
      ¬ 2046 ≤ (note 0 0 2045).frequency.toNat ∧
      ((waveNote 1 2047).playing = true ∧ (waveNote 1 2047).frequency.toNat = 2047) ∧
      ¬ (waveNote 1 2046).frequency.toNat = 2047 := by decide
/-- T41-1's first and last high samples, of a channel that is not silent. -/
theorem witness_PulsePeriodHighSamples : (note 2 12 2000).currentVolume ≠ 0 ∧ 4 < (2048 - (note 2 12 2000).frequency.toNat) / 3 ∧
    pulsePattern (note 2 12 2000) 3 = 0 ∧ pulsePattern (note 2 12 2000) 4 = 12 ∧ pulsePattern (note 2 12 2000) 11 = 12 ∧
    pulsePattern (note 2 12 2000) 12 = 0 := by decide
theorem witness_StepIndexesStayInRange :
    0 < pulseWaveLength 2045 ∧ 681 < pulseWaveLength 0 ∧ 0 < waveWaveLength 2046 ∧ 1364 < waveWaveLength 0 := by decide
theorem witness_FloatingPointStepIndexesSlipByOne :
    (1992, 35, 29) ∈ binary64StepIndex ++ binary32StepIndex ∧ (144, 595, 14) ∈ binary64StepIndex ++ binary32StepIndex := by
  decide
/-- Three channels with length on, counters 5, 4 and 1 (T41-9), one TICK. -/
def expiring : State :=
  { fresh 8 [8, 8] with
    p1 := { note 1 15 2024 with lengthEnabled := true, lengthLoad := 5, lengthCounter := 5 }
    p2 := { note 1 15 2024 with lengthEnabled := true, lengthLoad := 4, lengthCounter := 4 }
    w := { waveNote 1 2000 with lengthEnabled := true, lengthLoad := 1, lengthCounter := 1 } }
theorem witness_LengthCounterPlaysCeilQuarterTicks :
    ∃ t, runAll (List.replicate 1 .tick) expiring = .next t ∧ (1 ≤ 1 ∧ expiring.p1.playing = true ∧
      expiring.p1.lengthEnabled = true ∧ expiring.p2.playing = true ∧ expiring.p2.lengthEnabled = true ∧
      expiring.w.playing = true ∧ expiring.w.lengthEnabled = true) ∧
      decide (t.p1.playing = true ∧ t.p2.playing = false ∧ t.w.playing = false) = true :=
  (of_nextHas (by decide)).imp fun _ h => ⟨h.1, by decide, h.2⟩
theorem witness_PulseTickCountsAndStepsTheEnvelope : ∃ ch samples,
    pulseTick { note 1 14 2024 with envelopeAdd := true, envelopePeriod := 3, ticks := 2 } 8 = .ok (some (ch, samples)) ∧
      ch.ticks = 3 ∧ ch.currentVolume = 15 := ⟨_, _, rfl, rfl, by decide⟩
/-- T41-7: 14 with period 3, two TICKs on; and T41-6: downward from 5, to 0 and there. -/
theorem witness_EnvelopeRampSaturates :
    ∃ s t, runAll (List.replicate 2 .tick) s = .next t ∧ (s.p1.playing = true ∧ s.p1.lengthEnabled = false ∧
      s.p1.envelopePeriod.toNat ≠ 0 ∧ s.p1.envelopeAdd = true) ∧ (s.p2.playing = true ∧ s.p2.lengthEnabled = false ∧
      s.p2.envelopePeriod.toNat ≠ 0 ∧ s.p2.envelopeAdd = false) ∧
      decide (t.p1.currentVolume = 15 ∧ t.p2.currentVolume = 0) = true :=
  ⟨{ fresh 8 [8, 8] with
      p1 := { note 1 14 2024 with envelopeAdd := true, envelopePeriod := 3, ticks := 1 }
      p2 := { note 1 5 2024 with envelopePeriod := 1 } },
    (of_nextHas (by decide)).imp fun _ h => ⟨h.1, by decide, by decide, h.2⟩⟩
/-- Program C's block at a capacity below a period, the sink's answer above `F`, and each clause about the scratch
buffer. -/
theorem witness_TickFollowsItsRule :
    ((busy [10]).sinkAnswers 10 ∧ (busy [10]).renders ∧ (busy [10]).w.playing = true) ∧
    (∃ s : State, s.sinkAnswers 50 ∧ s.renders ∧ s.w.playing = false ∧ s.p2.playing = true) ∧
    (∃ s : State, s.sinkAnswers 0 ∧ s.renders ∧ s.w.playing = false ∧ s.p2.playing = false ∧ s.p1.playing = true) ∧
    (∃ s : State, s.sinkAnswers 8 ∧ s.renders ∧ s.w.playing = false ∧ s.p2.playing = false ∧ s.p1.playing = false) :=
  ⟨by decide, ⟨{ fresh 40 [50] with p2 := note 0 1 2045 }, by decide⟩, ⟨{ fresh 8 [0] with p1 := note 0 1 0 }, by decide⟩,
    ⟨fresh 8 [8], by decide⟩⟩
/-- One state for each channel that faults, and one at the frequencies below. -/
theorem witness_TickFaultsExactlyOnZeroWaveLength :
    (∃ s : State, s.sinkAnswers 0 ∧ s.p1.playing = true ∧ s.p1.frequency.toNat = 2046) ∧
    (∃ s : State, s.sinkAnswers 8 ∧ s.p2.playing = true ∧ s.p2.frequency.toNat = 2047) ∧
    (∃ s : State, s.sinkAnswers 8 ∧ s.w.playing = true ∧ s.w.frequency.toNat = 2047) ∧
    nextHas (exec .tick { fresh 8 [8] with p1 := note 0 1 2045, p2 := note 0 1 2045, w := waveNote 1 2046 })
      (fun t => decide (t.p1.ticks = 1)) = true :=
  ⟨⟨{ fresh 8 [0] with p1 := note 0 1 2046 }, by decide⟩, ⟨{ fresh 8 [8] with p2 := note 0 1 2047 }, by decide⟩,
    ⟨{ fresh 8 [8] with w := waveNote 1 2047 }, by decide⟩, by decide⟩
/-- A closed sink whose answer would be negative, and an open one whose answer is, beside a channel that would fault. -/
theorem witness_TickIsRefusedExactlyByTheSink :
    (∃ s : State, s.sink.isOpen = false ∧ s.sink.answers = [-1]) ∧
    (∃ s : State, s.sink.isOpen = true ∧ (∃ answer rest, s.sink.answers = answer :: rest ∧ answer < 0) ∧ ¬ s.renders) :=
  ⟨⟨{ fresh 8 [] with sink := { isOpen := false, answers := [-1] } }, by decide⟩,
    ⟨{ fresh 8 [-1] with p1 := note 0 1 2047 }, rfl, ⟨-1, [], rfl, by decide⟩, by decide⟩⟩
theorem witness_OnlyTickWritesToTheSink :
    (∃ t, exec .tick (busy [25]) = .next t) ∧ (∃ t, exec .reset (busy [25]) = .next t ∧ Instr.reset ≠ .tick) :=
  ⟨(of_nextHas (p := fun _ => true) (by decide)).imp fun _ h => h.1, ⟨_, rfl, by decide⟩⟩
/-- T43-2. -/
theorem witness_SilenceIsTheZeroBlock :
    ((fresh 40 [7]).sinkAnswers 7 ∧ (fresh 40 [7]).p1.playing = false ∧ (fresh 40 [7]).p2.playing = false ∧
      (fresh 40 [7]).w.playing = false) ∧ (fresh 40 [0]).sinkAnswers 0 := by decide
/-- T43-5: three channels at 15 reach 9. -/
theorem witness_TickSamplesAreAtMostNine : ∃ t, exec .tick { fresh 40 [40] with
    p1 := note 3 15 2024, p2 := note 3 15 2024, w := { waveNote 1 2024 with table := Vector.replicate 32 15 } } = .next t ∧
    decide (∃ x ∈ t.out.flatten, x = 9) = true := of_nextHas (by decide)
theorem witness_ChannelsAdvanceWhateverTheCapacity :
    (∃ t, exec .tick (busy [25]) = .next t) ∧
      (∃ t, exec .tick { busy [25] with sink := { (busy [25]).sink with answers := [0] } } = .next t) :=
  ⟨(of_nextHas (p := fun _ => true) (by decide)).imp fun _ h => h.1,
    (of_nextHas (p := fun _ => true) (by decide)).imp fun _ h => h.1⟩
/-- Both clauses of the hypothesis: a listed answer with another counter, and no answer with the same one. -/
theorem witness_BuffersAndFreeValuesAreUnobservable :
    (5 = (busy [25]).freeDraws ∨ (busy [25]).sink.answers ≠ []) ∧ (0 = (busy []).freeDraws ∨ (busy []).sink.answers ≠ []) :=
  ⟨.inr (by decide), .inl rfl⟩
theorem witness_ResetStateIsAllDefaults : ∃ t, exec .reset (busy []) = .next t := ⟨_, rfl⟩
/-- A state meeting the invariant whose step is a TICK that expires two of its channels. -/
theorem witness_EveryStepKeepsTheInvariant :
    (expiring.withFetchWord 16 0x8000).Inv ∧ ∃ t, step (expiring.withFetchWord 16 0x8000) = .next t :=
  ⟨by decide, (of_nextHas (p := fun _ => true) (by decide)).imp fun _ h => h.1⟩
/-- The write of program A starts `P1`; the same for the other channels. -/
theorem witness_OnlyATriggerStartsAChannel :
    (∃ t, exec (.wrcP1_4 0xC7) (fresh 8 []) = .next t ∧ (fresh 8 []).p1.playing = false ∧ t.p1.playing = true) ∧
    (∃ t, exec (.wrcP2_4 0x87) (fresh 8 []) = .next t ∧ (fresh 8 []).p2.playing = false ∧ t.p2.playing = true) ∧
    (∃ t, exec (.wrcW_4 0xFF) (fresh 8 []) = .next t ∧ (fresh 8 []).w.playing = false ∧ t.w.playing = true) :=
  ⟨⟨_, rfl, rfl, rfl⟩, ⟨_, rfl, rfl, rfl⟩, ⟨_, rfl, rfl, rfl⟩⟩
theorem witness_TicksCountPlayingTicks :
    (∃ t, exec .tick (busy [25]) = .next t ∧ (busy [25]).p1.playing = true ∧ decide (t.p1.ticks = 1) = true) ∧
      (∃ t, exec .reset (busy []) = .next t) ∧ (∃ t, exec (.wrcP1_4 0x80) (busy []) = .next t) :=
  ⟨(of_nextHas (by decide)).imp fun _ h => ⟨h.1, rfl, h.2⟩, ⟨_, rfl⟩, ⟨_, rfl⟩⟩
/-- A command of each kind that completes, with the clauses it falls under. -/
theorem witness_WritersOfEachField :
    (∃ t, exec .tick (busy [25]) = .next t ∧ Instr.tick ≠ .reset ∧ writesP1 .tick = false ∧ writesW .tick = false) ∧
    (∃ t, exec (.wwt 1 2) (busy []) = .next t ∧ writesP1 (.wwt 1 2) = false ∧ writesW (.wwt 1 2) = false ∧
      Instr.wwt 1 2 ≠ .tick) ∧
    (∃ t, exec (.wrcP1_0 2) (busy []) = .next t ∧ (∀ widx value, Instr.wrcP1_0 2 ≠ .wwt widx value) ∧
      writesP1 (.wrcP1_0 2) = false ∧ writesP2 (.wrcP1_0 2) = false ∧ writesW (.wrcP1_0 2) = false) :=
  ⟨(of_nextHas (p := fun _ => true) (by decide)).imp fun _ h => ⟨h.1, by decide, rfl, rfl⟩,
    ⟨_, rfl, rfl, rfl, by decide⟩, ⟨_, rfl, fun _ _ => Instr.noConfusion, rfl, rfl, rfl⟩⟩
/-- Two states that differ in everything but `P1`, `P2` or `W`. -/
theorem witness_ChannelsAreIndependent :
    ∃ s t t', exec .tick s = .next t ∧ exec .tick (busy [25]) = .next t' ∧ s.p1 = (busy [25]).p1 ∧
      s.p2 = (busy [25]).p2 ∧ s.w = (busy [25]).w ∧ s.out ≠ (busy [25]).out := by
  obtain ⟨t, h, -⟩ := of_nextHas (o := exec .tick { busy [0] with out := [[1]] }) (p := fun _ => true) (by decide)
  obtain ⟨t', h', -⟩ := of_nextHas (o := exec .tick (busy [25])) (p := fun _ => true) (by decide)
  exact ⟨_, t, t', h, h', rfl, rfl, rfl, by decide⟩
theorem witness_EveryCommandAnswersOnce :
    (∃ t, exec (.wwt 16 0) (busy []) = .next t) ∧ (∃ t, exec (.wwt 15 0) (busy []) = .next t) ∧
      (∃ t, exec .tick (busy [25]) = .next t) :=
  ⟨⟨_, rfl⟩, ⟨_, rfl⟩, (of_nextHas (p := fun _ => true) (by decide)).imp fun _ h => h.1⟩

end Sys2Proof.Tests
end

section
/-! PROOF. The floating-point step indexes of the parameter `StepIndex` against the exact one (R19, U7). -/

namespace Sys2Proof.Proofs.StepIndex

open Sys2Proof.Machine

/-- The point lies in a period of the wave channel, at the first sample of an exact entry `e`, and gives `e − 1`
(U7): `48 × i = e × n` says that the exact quotient of R19 is the integer `e`. -/
abbrev SlipsByOne (point : BitVec 11 × Nat × BitVec 5) : Prop :=
  point.2.1 < waveWaveLength point.1 ∧ 48 * point.2.1 = (point.2.2.toNat + 1) * (2048 - point.1.toNat)

theorem slipsByOne_of_mem_binary64 : ∀ point ∈ binary64StepIndex, SlipsByOne point := by decide

theorem slipsByOne_of_mem_binary32 : ∀ point ∈ binary32StepIndex, SlipsByOne point := by decide

/-- Settles O36: each of the two finite lists of U7 is checked point by point, and the lists are then joined. -/
theorem floatingPointStepIndexesSlipByOne : Obligations.FloatingPointStepIndexesSlipByOne :=
  ⟨rfl, rfl, List.forall_mem_append.mpr ⟨slipsByOne_of_mem_binary64, slipsByOne_of_mem_binary32⟩⟩

end Sys2Proof.Proofs.StepIndex
end

section
/-! PROOF. What a command does to each channel, as a function of the command and that channel alone (R31, R61). -/

namespace Sys2Proof.Proofs.Effects

open Sys2Proof.Machine Sys2Proof.Rules

/-- What a command does to one pulse channel: nothing, one of the four writes (R132 to R135), a tick, or a reset. -/
inductive PulseEffect where
  | keep
  | writeDutyLength (value : Byte)
  | writeVolumeEnvelope (value : Byte)
  | writeFrequencyLow (value : Byte)
  | writeTrigger (value : Byte)
  | tick
  | reset
  deriving DecidableEq

/-- What a command does to the wave channel: nothing, a write (R137 to R141, R143), a tick, or a reset. -/
inductive WaveEffect where
  | keep
  | writeDacPower (value : Byte)
  | writeLength (value : Byte)
  | writeVolumeCode (value : Byte)
  | writeFrequencyLow (value : Byte)
  | writeTrigger (value : Byte)
  | writeTableByte (j : Nat) (value : Byte)
  | tick
  | reset
  deriving DecidableEq

/-- The pulse channel after an effect. -/
def PulseEffect.apply : PulseEffect → PulseChannel → PulseChannel
  | .keep, ch => ch
  | .writeDutyLength value, ch => ch.writeDutyLength value
  | .writeVolumeEnvelope value, ch => ch.writeVolumeEnvelope value
  | .writeFrequencyLow value, ch => ch.writeFrequencyLow value
  | .writeTrigger value, ch => ch.writeTrigger value
  | .tick, ch => if ch.playing then ch.advance else ch
  | .reset, _ => PulseChannel.reset

/-- The wave channel after an effect. -/
def WaveEffect.apply : WaveEffect → WaveChannel → WaveChannel
  | .keep, ch => ch
  | .writeDacPower value, ch => ch.writeDacPower value
  | .writeLength value, ch => ch.writeLength value
  | .writeVolumeCode value, ch => ch.writeVolumeCode value
  | .writeFrequencyLow value, ch => ch.writeFrequencyLow value
  | .writeTrigger value, ch => ch.writeTrigger value
  | .writeTableByte j value, ch => ch.writeTableByte j value
  | .tick, ch => if ch.playing then ch.advance else ch
  | .reset, _ => WaveChannel.reset

theorem PulseEffect.tick_apply (ch : PulseChannel) : tick.apply ch = if ch.playing then ch.advance else ch := rfl

theorem WaveEffect.tick_apply (ch : WaveChannel) : tick.apply ch = if ch.playing then ch.advance else ch := rfl

/-- The effect of a command on `P1`. -/
def p1Effect : Instr → PulseEffect
  | .wrcP1_1 value => .writeDutyLength value
  | .wrcP1_2 value => .writeVolumeEnvelope value
  | .wrcP1_3 value => .writeFrequencyLow value
  | .wrcP1_4 value => .writeTrigger value
  | .tick => .tick
  | .reset => .reset
  | .wrcP1_0 _ => .keep
  | .wrcP2_0 _ | .wrcP2_1 _ | .wrcP2_2 _ | .wrcP2_3 _ | .wrcP2_4 _ => .keep
  | .wrcW_0 _ | .wrcW_1 _ | .wrcW_2 _ | .wrcW_3 _ | .wrcW_4 _ | .wwt _ _ => .keep

/-- The effect of a command on `P2`. -/
def p2Effect : Instr → PulseEffect
  | .wrcP2_1 value => .writeDutyLength value
  | .wrcP2_2 value => .writeVolumeEnvelope value
  | .wrcP2_3 value => .writeFrequencyLow value
  | .wrcP2_4 value => .writeTrigger value
  | .tick => .tick
  | .reset => .reset
  | .wrcP1_0 _ | .wrcP1_1 _ | .wrcP1_2 _ | .wrcP1_3 _ | .wrcP1_4 _ => .keep
  | .wrcP2_0 _ => .keep
  | .wrcW_0 _ | .wrcW_1 _ | .wrcW_2 _ | .wrcW_3 _ | .wrcW_4 _ | .wwt _ _ => .keep

/-- The effect of a command on `W`; a table byte of index 16 or more has none (R144). -/
def wEffect : Instr → WaveEffect
  | .wrcW_0 value => .writeDacPower value
  | .wrcW_1 value => .writeLength value
  | .wrcW_2 value => .writeVolumeCode value
  | .wrcW_3 value => .writeFrequencyLow value
  | .wrcW_4 value => .writeTrigger value
  | .wwt widx value => if widx.toNat ≤ 15 then .writeTableByte widx.toNat value else .keep
  | .tick => .tick
  | .reset => .reset
  | .wrcP1_0 _ | .wrcP1_1 _ | .wrcP1_2 _ | .wrcP1_3 _ | .wrcP1_4 _ => .keep
  | .wrcP2_0 _ | .wrcP2_1 _ | .wrcP2_2 _ | .wrcP2_3 _ | .wrcP2_4 _ => .keep

/-- The state with a command's effect on each of the three channels. -/
def applyEffects (i : Instr) (s : State) : State :=
  ((s.setP1 ((p1Effect i).apply s.p1)).setP2 ((p2Effect i).apply s.p2)).setW ((wEffect i).apply s.w)

/-! ### The effects and `exec` -/

theorem exec_wwt_eq_applyEffects (widx : BitVec 6) (value : Byte) (s : State) :
    exec (.wwt widx value) s = .next ((applyEffects (.wwt widx value) s).respond (responseOf (.wwt widx value))) := by
  have hexec : exec (.wwt widx value) s = execWwt widx value s := rfl
  by_cases h : widx.toNat ≤ 15
  · have hw : wEffect (.wwt widx value) = .writeTableByte widx.toNat value := if_pos h
    have hr : responseOf (.wwt widx value) = .ok := if_neg (by omega)
    rw [hexec, execWwt, if_pos h, applyEffects, hw, hr]
    rfl
  · have hw : wEffect (.wwt widx value) = .keep := if_neg h
    have hr : responseOf (.wwt widx value) = .invalidArgument widx := if_pos (by omega)
    rw [hexec, execWwt, if_neg h, applyEffects, hw, hr]
    rfl

/-- A register or table write does its channel effects and answers; it does nothing else. -/
theorem exec_eq_applyEffects {i : Instr} (ht : i ≠ .tick) (hr : i ≠ .reset) (s : State) :
    exec i s = .next ((applyEffects i s).respond (responseOf i)) := by
  cases i
  case tick => exact absurd rfl ht
  case reset => exact absurd rfl hr
  case wwt widx value => exact exec_wwt_eq_applyEffects widx value s
  all_goals rfl

/-- A command that completes was a TICK, a RESET, or a write with its channel effects. -/
theorem exec_next_cases {i : Instr} {s t : State} (h : exec i s = .next t) :
    (i = .tick ∧ execTick s = .next t) ∨ (i = .reset ∧ t = s.resetChannels.respond .ok) ∨
      (i ≠ .tick ∧ i ≠ .reset ∧ t = (applyEffects i s).respond (responseOf i)) := by
  by_cases ht : i = .tick
  · subst ht; exact .inl ⟨rfl, h⟩
  · by_cases hr : i = .reset
    · subst hr; cases h; exact .inr (.inl ⟨rfl, rfl⟩)
    · rw [exec_eq_applyEffects ht hr] at h; cases h; exact .inr (.inr ⟨ht, hr, rfl⟩)

/-- Each channel after a command that completes is the command's effect on that channel. -/
theorem exec_channels {i : Instr} {s t : State} (h : exec i s = .next t) :
    t.p1 = (p1Effect i).apply s.p1 ∧ t.p2 = (p2Effect i).apply s.p2 ∧ t.w = (wEffect i).apply s.w := by
  rcases exec_next_cases h with ⟨rfl, h⟩ | ⟨rfl, rfl⟩ | ⟨-, -, rfl⟩
  · obtain ⟨-, -, -, hp1, hp2, hw, -⟩ := execTick_next_effect h
    exact ⟨hp1, hp2, hw⟩
  · exact ⟨rfl, rfl, rfl⟩
  · exact ⟨rfl, rfl, rfl⟩

/-- No command changes the parameters or the port. -/
theorem exec_params_port {i : Instr} {s t : State} (h : exec i s = .next t) :
    t.params = s.params ∧ t.port = s.port := by
  rcases exec_next_cases h with ⟨-, h⟩ | ⟨-, rfl⟩ | ⟨-, -, rfl⟩
  · obtain ⟨-, -, -, -, -, -, -, -, hparams, hport, -⟩ := execTick_next_effect h
    exact ⟨hparams, hport⟩
  · exact ⟨rfl, rfl⟩
  · exact ⟨rfl, rfl⟩

/-! ### Which command has which effect -/

/-- WWT writes the byte it names or, from index 16 on, leaves `W` alone. -/
theorem wEffect_wwt_cases (widx : BitVec 6) (value : Byte) :
    wEffect (.wwt widx value) = .writeTableByte widx.toNat value ∨ wEffect (.wwt widx value) = .keep :=
  ite_eq_or_eq _ _ _

@[simp] theorem p1Effect_eq_tick {i : Instr} : p1Effect i = .tick ↔ i = .tick := by cases i <;> simp [p1Effect]
@[simp] theorem p2Effect_eq_tick {i : Instr} : p2Effect i = .tick ↔ i = .tick := by cases i <;> simp [p2Effect]
@[simp] theorem p1Effect_eq_reset {i : Instr} : p1Effect i = .reset ↔ i = .reset := by cases i <;> simp [p1Effect]
@[simp] theorem p2Effect_eq_reset {i : Instr} : p2Effect i = .reset ↔ i = .reset := by cases i <;> simp [p2Effect]

@[simp] theorem wEffect_eq_tick {i : Instr} : wEffect i = .tick ↔ i = .tick := by
  cases i
  case wwt widx value => rcases wEffect_wwt_cases widx value with e | e <;> simp [e]
  all_goals simp [wEffect]

@[simp] theorem wEffect_eq_reset {i : Instr} : wEffect i = .reset ↔ i = .reset := by
  cases i
  case wwt widx value => rcases wEffect_wwt_cases widx value with e | e <;> simp [e]
  all_goals simp [wEffect]

@[simp] theorem p1Effect_eq_writeTrigger {i : Instr} {value : Byte} :
    p1Effect i = .writeTrigger value ↔ i = .wrcP1_4 value := by
  cases i <;> simp [p1Effect]

@[simp] theorem p2Effect_eq_writeTrigger {i : Instr} {value : Byte} :
    p2Effect i = .writeTrigger value ↔ i = .wrcP2_4 value := by
  cases i <;> simp [p2Effect]

@[simp] theorem wEffect_eq_writeTrigger {i : Instr} {value : Byte} :
    wEffect i = .writeTrigger value ↔ i = .wrcW_4 value := by
  cases i
  case wwt widx value => rcases wEffect_wwt_cases widx value with e | e <;> simp [e]
  all_goals simp [wEffect]

/-- A command that does not write `P1` leaves it alone or ticks it. -/
theorem p1Effect_of_not_writesP1 {i : Instr} (hw : writesP1 i = false) (hr : i ≠ .reset) :
    p1Effect i = .keep ∨ i = .tick := by
  cases i <;> simp_all [p1Effect, writesP1]

/-- A command that does not write `P2` leaves it alone or ticks it. -/
theorem p2Effect_of_not_writesP2 {i : Instr} (hw : writesP2 i = false) (hr : i ≠ .reset) :
    p2Effect i = .keep ∨ i = .tick := by
  cases i <;> simp_all [p2Effect, writesP2]

/-- A command with no control-register write of `W` leaves it alone, ticks it or writes a byte of its table. -/
theorem wEffect_of_not_writesW {i : Instr} (hw : writesW i = false) (hr : i ≠ .reset) :
    wEffect i = .keep ∨ i = .tick ∨ ∃ widx value, i = .wwt widx value := by
  cases i <;> simp_all [wEffect, writesW]

/-- Only WWT writes the table. -/
theorem wEffect_ne_writeTableByte {i : Instr} (hi : ∀ widx value, i ≠ .wwt widx value) (j : Nat) (value : Byte) :
    wEffect i ≠ .writeTableByte j value := by
  cases i
  case wwt widx value => exact absurd rfl (hi widx value)
  all_goals simp [wEffect]

/-! ### The fields after an effect -/

@[simp] theorem reload_playing (ch : PulseChannel) : ch.reload.playing = ch.playing := by
  rw [PulseChannel.reload_eq]
@[simp] theorem reload_ticks (ch : PulseChannel) : ch.reload.ticks = ch.ticks := by rw [PulseChannel.reload_eq]

@[simp] theorem waveReload_playing (ch : WaveChannel) : ch.reload.playing = ch.playing := by
  rw [WaveChannel.reload_eq]
@[simp] theorem waveReload_ticks (ch : WaveChannel) : ch.reload.ticks = ch.ticks := by rw [WaveChannel.reload_eq]
@[simp] theorem waveReload_table (ch : WaveChannel) : ch.reload.table = ch.table := by rw [WaveChannel.reload_eq]

/-- A silent pulse channel plays after an effect only if the effect is a trigger write with its trigger bit set. -/
theorem PulseEffect.starts_only_by_trigger {e : PulseEffect} {ch : PulseChannel} (hs : ch.playing = false)
    (ht : (e.apply ch).playing = true) : ∃ value, e = .writeTrigger value ∧ value.getLsbD 7 = true := by
  cases e with
  | keep => simp [apply, hs] at ht
  | writeDutyLength value => simp [apply, PulseChannel.writeDutyLength, hs] at ht
  | writeVolumeEnvelope value => simp [apply, PulseChannel.writeVolumeEnvelope, hs] at ht
  | writeFrequencyLow value => simp [apply, PulseChannel.writeFrequencyLow, hs] at ht
  | writeTrigger value =>
    exact ⟨value, rfl, by simpa [apply, PulseChannel.writeTrigger, triggerBit] using ht⟩
  | tick => simp [apply, hs] at ht
  | reset => simp [apply, PulseChannel.reset] at ht

/-- The wave channel starts as a pulse channel does. -/
theorem WaveEffect.starts_only_by_trigger {e : WaveEffect} {ch : WaveChannel} (hs : ch.playing = false)
    (ht : (e.apply ch).playing = true) : ∃ value, e = .writeTrigger value ∧ value.getLsbD 7 = true := by
  cases e with
  | keep => simp [apply, hs] at ht
  | writeDacPower value => simp [apply, WaveChannel.writeDacPower, hs] at ht
  | writeLength value => simp [apply, WaveChannel.writeLength, hs] at ht
  | writeVolumeCode value => simp [apply, WaveChannel.writeVolumeCode, hs] at ht
  | writeFrequencyLow value => simp [apply, WaveChannel.writeFrequencyLow, hs] at ht
  | writeTrigger value =>
    exact ⟨value, rfl, by simpa [apply, WaveChannel.writeTrigger, triggerBit] using ht⟩
  | writeTableByte j value => simp [apply, WaveChannel.writeTableByte, hs] at ht
  | tick => simp [apply, hs] at ht
  | reset => simp [apply, WaveChannel.reset] at ht

theorem PulseEffect.apply_ticks (e : PulseEffect) (ch : PulseChannel) :
    (e.apply ch).ticks =
      if e = .reset then 0 else if e = .tick ∧ ch.playing = true then ch.ticks + 1 else ch.ticks := by
  cases e with
  | tick => cases h : ch.playing <;> simp [apply, PulseChannel.advance, h]
  | reset => rfl
  | keep => rfl
  | writeDutyLength value => simp [apply, PulseChannel.writeDutyLength]
  | writeVolumeEnvelope value => simp [apply, PulseChannel.writeVolumeEnvelope]
  | writeFrequencyLow value => simp [apply, PulseChannel.writeFrequencyLow]
  | writeTrigger value => simp [apply, PulseChannel.writeTrigger]

theorem WaveEffect.apply_ticks (e : WaveEffect) (ch : WaveChannel) :
    (e.apply ch).ticks =
      if e = .reset then 0 else if e = .tick ∧ ch.playing = true then ch.ticks + 1 else ch.ticks := by
  cases e with
  | tick => cases h : ch.playing <;> simp [apply, WaveChannel.advance, h]
  | reset => rfl
  | keep => rfl
  | writeDacPower value => simp [apply, WaveChannel.writeDacPower]
  | writeLength value => simp [apply, WaveChannel.writeLength]
  | writeVolumeCode value => simp [apply, WaveChannel.writeVolumeCode]
  | writeFrequencyLow value => simp [apply, WaveChannel.writeFrequencyLow]
  | writeTrigger value => simp [apply, WaveChannel.writeTrigger]
  | writeTableByte j value => simp [apply, WaveChannel.writeTableByte]

/-- A tick sets no setting of a pulse channel. -/
theorem pulseSettings_tick (ch : PulseChannel) : pulseSettings (PulseEffect.tick.apply ch) = pulseSettings ch := by
  rw [PulseEffect.tick_apply]; split <;> rfl

/-- A tick sets no setting of the wave channel. -/
theorem waveSettings_tick (ch : WaveChannel) : waveSettings (WaveEffect.tick.apply ch) = waveSettings ch := by
  rw [WaveEffect.tick_apply]; split <;> rfl

/-- A table byte is no setting of the wave channel. -/
theorem waveSettings_wwt (widx : BitVec 6) (value : Byte) (ch : WaveChannel) :
    waveSettings ((wEffect (.wwt widx value)).apply ch) = waveSettings ch := by
  rcases wEffect_wwt_cases widx value with e | e <;> rw [e] <;> rfl

/-- Nothing but a table byte and a reset changes the table. -/
theorem WaveEffect.apply_table {e : WaveEffect} (ht : ∀ j value, e ≠ .writeTableByte j value) (hr : e ≠ .reset)
    (ch : WaveChannel) : (e.apply ch).table = ch.table := by
  cases e with
  | keep => rfl
  | writeDacPower value => simp [apply, WaveChannel.writeDacPower]
  | writeLength value => simp [apply, WaveChannel.writeLength]
  | writeVolumeCode value => simp [apply, WaveChannel.writeVolumeCode]
  | writeFrequencyLow value => simp [apply, WaveChannel.writeFrequencyLow]
  | writeTrigger value => simp [apply, WaveChannel.writeTrigger]
  | writeTableByte j value => exact absurd rfl (ht j value)
  | tick => rw [tick_apply]; split <;> rfl
  | reset => exact absurd rfl hr

end Sys2Proof.Proofs.Effects
end

section
/-! PROOF. The invariant of the machine (R36, R48, R51, R52, R208): it holds at reset and every step keeps it. -/

namespace Sys2Proof.Proofs.Invariant

open Sys2Proof.Machine Sys2Proof.Proofs.Effects

/-! ### The length counters -/

/-- After the reload the counter needs no more than its range before it. -/
theorem reload_inv {ch : PulseChannel} (hlo : -4 ≤ ch.lengthCounter) (hhi : ch.lengthCounter ≤ 63) : ch.reload.Inv := by
  have hload := ch.lengthLoad.isLt
  rw [PulseChannel.reload_eq]
  cases h : ch.lengthEnabled
  · simp [PulseChannel.Inv, hlo, hhi]
  · simp [PulseChannel.Inv]; omega

theorem waveReload_inv {ch : WaveChannel} (hlo : -4 ≤ ch.lengthCounter) (hhi : ch.lengthCounter ≤ 255) :
    ch.reload.Inv := by
  have hload := ch.lengthLoad.isLt
  rw [WaveChannel.reload_eq]
  cases h : ch.lengthEnabled
  · simp [WaveChannel.Inv, hlo, hhi]
  · simp [WaveChannel.Inv]; omega

/-- A playing channel's counter is at least 0 before its step, so at least −4 after it, and the channel that still
plays had more than 4. Stated for the three fields of either kind of channel, with `hi` the top of the range. -/
theorem stepped_range {enabled : Bool} {counter hi : Int} (hlo : -4 ≤ counter) (hhi : counter ≤ hi)
    (hplay : enabled = true → 0 ≤ counter) :
    -4 ≤ steppedCounter enabled counter ∧ steppedCounter enabled counter ≤ hi ∧
      (enabled = true → steppedPlaying enabled counter true = true → 0 ≤ steppedCounter enabled counter) := by
  rw [steppedPlaying_eq]
  cases enabled
  · simp [steppedCounter, hlo, hhi]
  · have := hplay rfl
    simp [steppedCounter]; omega

theorem advance_inv {ch : PulseChannel} (hp : ch.playing = true) (h : ch.Inv) : ch.advance.Inv := by
  obtain ⟨hlo, hhi, hplay⟩ := h
  simpa [PulseChannel.Inv, PulseChannel.advance, hp] using stepped_range hlo hhi fun he => hplay he hp

theorem waveAdvance_inv {ch : WaveChannel} (hp : ch.playing = true) (h : ch.Inv) : ch.advance.Inv := by
  obtain ⟨hlo, hhi, hplay⟩ := h
  simpa [WaveChannel.Inv, WaveChannel.advance, hp] using stepped_range hlo hhi fun he => hplay he hp

theorem pulseReset_inv : PulseChannel.reset.Inv := by decide

theorem waveReset_inv : WaveChannel.reset.Inv := by decide

/-- Every effect keeps a pulse channel's invariant: the writes end in a reload, a tick is a step of the counter. -/
theorem pulseEffect_inv (e : PulseEffect) {ch : PulseChannel} (h : ch.Inv) : (e.apply ch).Inv := by
  have ⟨hlo, hhi, _⟩ := h
  cases e with
  | keep => exact h
  | writeDutyLength value => exact reload_inv hlo hhi
  | writeVolumeEnvelope value => exact reload_inv hlo hhi
  | writeFrequencyLow value => exact reload_inv hlo hhi
  | writeTrigger value => exact reload_inv hlo hhi
  | tick =>
    rw [PulseEffect.tick_apply]
    split
    case isTrue hp => exact advance_inv hp h
    case isFalse => exact h
  | reset => exact pulseReset_inv

/-- Every effect keeps the wave channel's invariant. -/
theorem waveEffect_inv (e : WaveEffect) {ch : WaveChannel} (h : ch.Inv) : (e.apply ch).Inv := by
  have ⟨hlo, hhi, _⟩ := h
  cases e with
  | keep => exact h
  | writeDacPower value => exact waveReload_inv hlo hhi
  | writeLength value => exact waveReload_inv hlo hhi
  | writeVolumeCode value => exact waveReload_inv hlo hhi
  | writeFrequencyLow value => exact waveReload_inv hlo hhi
  | writeTrigger value => exact waveReload_inv hlo hhi
  | writeTableByte j value => exact h
  | tick =>
    rw [WaveEffect.tick_apply]
    split
    case isTrue hp => exact waveAdvance_inv hp h
    case isFalse => exact h
  | reset => exact waveReset_inv

/-! ### The buffers and the block of a TICK -/

/-- The buffers within a mixer tick for `n` samples: both in form, the first `n` master samples at most `bound`. -/
structure Mixing (n bound : Nat) (s : State) : Prop where
  mst_wf : Buffer.wf s.params s.mst = true
  scr_wf : Buffer.wf s.params s.scr = true
  le_bound : ∀ x ∈ s.mst.take n, x.toNat ≤ bound

theorem Mixing.mono {n a b : Nat} {s : State} (h : Mixing n a s) (hab : a ≤ b) : Mixing n b s :=
  ⟨h.mst_wf, h.scr_wf, fun x hx => (h.le_bound x hx).trans hab⟩

/-- Mixing one channel raises the bound by 3, a quarter of 15. -/
theorem Mixing.mixChannel {n bound : Nat} {s : State} {samples : List Sample} (h : Mixing n bound s)
    (hn : n ≤ s.params.frameSampleCount) (hl : samples.length = n) (hb : ∀ x ∈ samples, x.toNat ≤ 15) :
    Mixing n (bound + 3) (s.mixChannel n samples) := by
  obtain ⟨hmst, hscr⟩ := mixChannel_wf s n samples hn hl h.mst_wf
  refine ⟨hmst, hscr, ?_⟩
  rw [State.mixChannel_mst, accumulate_append n s.mst samples _ hl]
  exact accumulate_le n bound s.mst samples h.le_bound fun x hx => hb x (List.mem_of_mem_take hx)

theorem tickP1_mixing {n bound : Nat} {s t : State} (h : Mixing n bound s) (hn : n ≤ s.params.frameSampleCount)
    (ht : tickP1 n s = .next t) : Mixing n (bound + 3) t ∧ t.params = s.params := by
  rcases tickP1_cases n s with ⟨-, e⟩ | ⟨-, -, e⟩ | ⟨-, -, samples, hl, hb, -, e⟩ <;> rw [e] at ht <;> cases ht
  · exact ⟨h.mono (Nat.le_add_right _ _), rfl⟩
  · exact ⟨Mixing.mixChannel ⟨h.mst_wf, h.scr_wf, h.le_bound⟩ hn hl hb, rfl⟩

theorem tickP2_mixing {n bound : Nat} {s t : State} (h : Mixing n bound s) (hn : n ≤ s.params.frameSampleCount)
    (ht : tickP2 n s = .next t) : Mixing n (bound + 3) t ∧ t.params = s.params := by
  rcases tickP2_cases n s with ⟨-, e⟩ | ⟨-, -, e⟩ | ⟨-, -, samples, hl, hb, -, e⟩ <;> rw [e] at ht <;> cases ht
  · exact ⟨h.mono (Nat.le_add_right _ _), rfl⟩
  · exact ⟨Mixing.mixChannel ⟨h.mst_wf, h.scr_wf, h.le_bound⟩ hn hl hb, rfl⟩

theorem tickW_mixing {n bound : Nat} {s t : State} (h : Mixing n bound s) (hn : n ≤ s.params.frameSampleCount)
    (ht : tickW n s = .next t) : Mixing n (bound + 3) t ∧ t.params = s.params := by
  rcases tickW_cases n s with ⟨-, e⟩ | ⟨-, -, e⟩ | ⟨-, -, samples, hl, hb, -, e⟩ <;> rw [e] at ht <;> cases ht
  · exact ⟨h.mono (Nat.le_add_right _ _), rfl⟩
  · exact ⟨Mixing.mixChannel ⟨h.mst_wf, h.scr_wf, h.le_bound⟩ hn hl hb, rfl⟩

/-- The zeroed master buffer is bounded by 0. -/
theorem zeroMaster_mixing {s : State} (n : Nat) (hscr : Buffer.wf s.params s.scr = true) : Mixing n 0 s.zeroMaster := by
  refine ⟨zeroMaster_wf s, hscr, fun x hx => ?_⟩
  rw [List.eq_of_mem_replicate (List.mem_of_mem_take hx)]
  rfl

/-- The mixer tick keeps the buffers' form, and its three channels give samples of at most 9 (R208). -/
theorem mixerTick_mixing {n : Nat} {s t : State} (hscr : Buffer.wf s.params s.scr = true)
    (hn : n ≤ s.params.frameSampleCount) (h : mixerTick n s = .next t) : Mixing n 9 t := by
  obtain ⟨s1, s2, s3, h1, h2, h3, rfl⟩ := mixerTick_eq_next.1 h
  obtain ⟨m1, e1⟩ := tickP1_mixing (zeroMaster_mixing n hscr) hn h1
  obtain ⟨m2, e2⟩ := tickP2_mixing m1 (e1 ▸ hn) h2
  obtain ⟨m3, -⟩ := tickW_mixing m2 (e2 ▸ e1 ▸ hn) h3
  exact ⟨m3.mst_wf, m3.scr_wf, m3.le_bound⟩

/-- The part of the invariant that a TICK has to build: its buffers and the block it writes. -/
theorem execTick_buffers {s t : State} (hscr : Buffer.wf s.params s.scr = true) (h : execTick s = .next t) :
    Buffer.wf t.params t.mst = true ∧ Buffer.wf t.params t.scr = true ∧
      ∃ block, t.out = s.out ++ [block] ∧ blockInRange s.params block := by
  obtain ⟨-, cap, hcap, hmix⟩ := execTick_eq_next.1 h
  obtain ⟨cap', -, hcap', -, -, -, hout, -⟩ := execTick_next_effect h
  obtain rfl : cap = cap' := Option.some.inj (hcap.symm.trans hcap')
  have m : Mixing (min cap s.params.frameSampleCount) 9 t := mixerTick_mixing (by simpa using hscr) (by simp) hmix
  refine ⟨m.mst_wf, m.scr_wf, _, hout, ?_, m.le_bound⟩
  exact (List.length_take_le _ _).trans (Nat.min_le_right _ _)

/-! ### Every command and every step -/

/-- The buffers keep their form and the history its bounds, in every command that completes. -/
theorem exec_buffers {i : Instr} {s t : State} (hmst : Buffer.wf s.params s.mst = true)
    (hscr : Buffer.wf s.params s.scr = true) (hout : ∀ block ∈ s.out, blockInRange s.params block)
    (h : exec i s = .next t) :
    Buffer.wf t.params t.mst = true ∧ Buffer.wf t.params t.scr = true ∧
      ∀ block ∈ t.out, blockInRange t.params block := by
  rcases exec_next_cases h with ⟨-, ht⟩ | ⟨-, rfl⟩ | ⟨-, -, rfl⟩
  · obtain ⟨hmst', hscr', block, ho, hb⟩ := execTick_buffers hscr ht
    obtain ⟨hparams, -⟩ := exec_params_port h
    refine ⟨hmst', hscr', ?_⟩
    rw [ho, hparams]
    exact List.forall_mem_append.2 ⟨hout, List.forall_mem_singleton.2 hb⟩
  · obtain ⟨hmst', hscr'⟩ := resetChannels_wf s
    exact ⟨hmst', hscr', hout⟩
  · exact ⟨hmst, hscr, hout⟩

theorem exec_inv {i : Instr} {s t : State} (hs : s.Inv) (h : exec i s = .next t) : t.Inv := by
  obtain ⟨hp1, hp2, hw, hmst, hscr, hout⟩ := hs
  obtain ⟨ep1, ep2, ew⟩ := exec_channels h
  refine ⟨?_, ?_, ?_, exec_buffers hmst hscr hout h⟩
  · rw [ep1]; exact pulseEffect_inv _ hp1
  · rw [ep2]; exact pulseEffect_inv _ hp2
  · rw [ew]; exact waveEffect_inv _ hw

/-- Settles O52: an idle step changes nothing, and every command keeps the three channels' counters by its effect on
them and the buffers and blocks by what TICK, RESET and the writes do to them. -/
theorem everyStepKeepsTheInvariant : Obligations.EveryStepKeepsTheInvariant := by
  intro s t hs h
  rcases step_eq_next h with ⟨-, rfl⟩ | ⟨word, rest, i, -, -, hi⟩
  · exact hs
  · exact exec_inv (s := { s with port := rest }) hs hi

/-- Settles O51: the channels' defaults are in range, the buffers have their size and the history is empty. -/
theorem invariantHoldsAtReset : Obligations.InvariantHoldsAtReset := by
  obtain ⟨hmst, hscr⟩ := reset_wf
  exact ⟨pulseReset_inv, pulseReset_inv, waveReset_inv, hmst, hscr, List.forall_mem_nil _⟩

end Sys2Proof.Proofs.Invariant
end

section
/-! PROOF. The statements about the whole state: its writers, its defaults and one step (R33, R43, R44, R59, R61). -/

namespace Sys2Proof.Proofs.StateRules

open Sys2Proof.Machine Sys2Proof.Rules Sys2Proof.Proofs.Effects

/-- Settles O53: each channel is its effect's, and the only effect that starts a channel is the trigger write. -/
theorem onlyATriggerStartsAChannel : Obligations.OnlyATriggerStartsAChannel := by
  intro i s t h
  obtain ⟨hp1, hp2, hw⟩ := exec_channels h
  rw [hp1, hp2, hw]
  refine ⟨fun hs ht => ?_, fun hs ht => ?_, fun hs ht => ?_⟩
  · simpa using PulseEffect.starts_only_by_trigger hs ht
  · simpa using PulseEffect.starts_only_by_trigger hs ht
  · simpa using WaveEffect.starts_only_by_trigger hs ht

/-- Settles O54: `ticks` after an effect, with the effect of TICK and of RESET on each channel. -/
theorem ticksCountPlayingTicks : Obligations.TicksCountPlayingTicks := by
  intro i s t h
  obtain ⟨hp1, hp2, hw⟩ := exec_channels h
  rw [hp1, hp2, hw]
  simp [PulseEffect.apply_ticks, WaveEffect.apply_ticks]

/-- A pulse channel that a command keeps or ticks keeps its settings, and all of itself if it is not a TICK. -/
theorem pulse_unwritten {e : PulseEffect} {i : Instr} {ch : PulseChannel} (he : e = .keep ∨ i = .tick)
    (ht : e = .tick ↔ i = .tick) :
    pulseSettings (e.apply ch) = pulseSettings ch ∧ (i ≠ .tick → e.apply ch = ch) := by
  rcases he with rfl | hi
  · exact ⟨rfl, fun _ => rfl⟩
  · obtain rfl := ht.2 hi
    exact ⟨pulseSettings_tick ch, fun h => absurd hi h⟩

theorem wave_settings_unwritten {i : Instr} (hw : writesW i = false) (hr : i ≠ .reset) (ch : WaveChannel) :
    waveSettings ((wEffect i).apply ch) = waveSettings ch := by
  rcases wEffect_of_not_writesW hw hr with e | rfl | ⟨widx, value, rfl⟩
  · rw [e]; rfl
  · exact waveSettings_tick ch
  · exact waveSettings_wwt widx value ch

theorem wave_unwritten {i : Instr} (hi : ∀ widx value, i ≠ .wwt widx value) (hw : writesW i = false)
    (hr : i ≠ .reset) (ht : i ≠ .tick) (ch : WaveChannel) : (wEffect i).apply ch = ch := by
  rcases wEffect_of_not_writesW hw hr with e | e | ⟨widx, value, e⟩
  · rw [e]; rfl
  · exact absurd e ht
  · exact absurd e (hi widx value)

/-- A command other than TICK and RESET leaves both buffers as they are. -/
theorem exec_buffers_unchanged {i : Instr} {s t : State} (h : exec i s = .next t) (hr : i ≠ .reset) (ht : i ≠ .tick) :
    t.mst = s.mst ∧ t.scr = s.scr := by
  rw [exec_eq_applyEffects ht hr] at h
  cases h
  exact ⟨rfl, rfl⟩

/-- Settles O55, group by group of R61's table: the settings and the rest of each channel, the table, the buffers. -/
theorem writersOfEachField : Obligations.WritersOfEachField := by
  intro i s t h
  obtain ⟨hp1, hp2, hw⟩ := exec_channels h
  obtain ⟨hparams, hport⟩ := exec_params_port h
  rw [hp1, hp2, hw]
  refine ⟨hparams, hport, fun hr => ⟨fun hn => ?_, fun hn => ?_, fun hn => ?_, fun hi => ⟨?_, fun hn ht => ?_⟩, ?_⟩⟩
  · exact pulse_unwritten (p1Effect_of_not_writesP1 hn hr) p1Effect_eq_tick
  · exact pulse_unwritten (p2Effect_of_not_writesP2 hn hr) p2Effect_eq_tick
  · exact wave_settings_unwritten hn hr s.w
  · exact WaveEffect.apply_table (wEffect_ne_writeTableByte hi) (by simpa using hr) s.w
  · exact wave_unwritten hi hn hr ht s.w
  · exact exec_buffers_unchanged h hr

/-- Settles O56: a channel after a command is the command's effect on that channel, in both states. -/
theorem channelsAreIndependent : Obligations.ChannelsAreIndependent := by
  intro i s s' t t' h h'
  obtain ⟨hp1, hp2, hw⟩ := exec_channels h
  obtain ⟨hp1', hp2', hw'⟩ := exec_channels h'
  rw [hp1, hp2, hw, hp1', hp2', hw']
  exact ⟨congrArg (p1Effect i).apply, congrArg (p2Effect i).apply, congrArg (wEffect i).apply⟩

/-- Settles O8: a step at a port with a word is the decoded command at the rest of the port. -/
theorem stepRunsTheDecodedCommand : Obligations.StepRunsTheDecodedCommand := by
  intro s word rest i hport hdecode
  rw [step_of_port hport, hdecode]

theorem pulseDefaults_reset : pulseDefaults PulseChannel.reset :=
  ⟨rfl, rfl, rfl, rfl, rfl, rfl, rfl, rfl, rfl, rfl, rfl⟩

theorem waveDefaults_reset : waveDefaults WaveChannel.reset :=
  ⟨rfl, rfl, rfl, rfl, rfl, rfl, rfl, rfl, fun _ h => Vector.getElem_replicate h⟩

/-- Settles O50: power-on and RESET both put the channels' reset values, and RESET leaves the history alone. -/
theorem resetStateIsAllDefaults : Obligations.ResetStateIsAllDefaults := by
  refine ⟨⟨pulseDefaults_reset, pulseDefaults_reset, waveDefaults_reset, rfl⟩, fun s t h => ?_⟩
  cases h
  exact ⟨pulseDefaults_reset, pulseDefaults_reset, waveDefaults_reset, rfl⟩

end Sys2Proof.Proofs.StateRules
end

section
/-! PROOF. The step indexes of a sample inside its period stay in range (R19, R92). -/

namespace Sys2Proof.Proofs.StepRange

open Sys2Proof.Machine

/-- `i < n div 3` gives `24 × i < 8 × n`: the step is one of the eight of R165. -/
theorem pulseStep_lt_eight {frequency : BitVec 11} {i : Nat} (h : i < pulseWaveLength frequency) :
    pulseStep frequency i < 8 := by
  unfold pulseWaveLength at h
  exact Nat.div_lt_of_lt_mul (by omega)

/-- `i < (2 × n) div 3` gives `48 × i < 32 × n`: the entry is one of the 32 of the table (R50). -/
theorem exactEntry_lt_32 {frequency : BitVec 11} {i : Nat} (h : i < waveWaveLength frequency) :
    48 * i / periodBase frequency < 32 := by
  unfold waveWaveLength at h
  exact Nat.div_lt_of_lt_mul (by omega)

/-- Inside a period the 5 bits of the model's entry index cut nothing off. -/
theorem exactWaveEntry_toNat {frequency : BitVec 11} {i : Nat} (h : i < waveWaveLength frequency) :
    (exactWaveEntry frequency i).toNat = 48 * i / periodBase frequency :=
  (BitVec.toNat_ofNat _ _).trans (Nat.mod_eq_of_lt (exactEntry_lt_32 h))

/-- Settles O35: each index is below the size of its table, so the 5-bit entry index is the exact one. -/
theorem stepIndexesStayInRange : Obligations.StepIndexesStayInRange := fun _ _ =>
  ⟨fun h => Nat.le_of_lt_succ (pulseStep_lt_eight h),
    fun h => ⟨Nat.le_of_lt_succ (exactEntry_lt_32 h), exactWaveEntry_toNat h⟩⟩

end Sys2Proof.Proofs.StepRange
end

section
/-! PROOF. A register write, a table write or a RESET issued twice leaves what it left once (R89). -/

namespace Sys2Proof.Proofs.RepeatedWrites

open Sys2Proof.Machine Sys2Proof.Proofs.Effects Sys2Proof.Proofs.StateRules

/-! ### The parts of a write -/

theorem withFrequencyLow_idem (frequency : BitVec 11) (value : Byte) :
    withFrequencyLow (withFrequencyLow frequency value) value = withFrequencyLow frequency value := by
  apply BitVec.eq_of_toNat_eq
  simp only [withFrequencyLow_toNat]
  omega

theorem withFrequencyHigh_idem (frequency : BitVec 11) (value : Byte) :
    withFrequencyHigh (withFrequencyHigh frequency value) value = withFrequencyHigh frequency value := by
  apply BitVec.eq_of_toNat_eq
  simp only [withFrequencyHigh_toNat]
  omega

/-- A second reload gives the counter the load it already holds, or leaves it again (R136, R142). -/
theorem reloadedCounter_idem (enabled : Bool) (load counter : Int) :
    (if enabled then load else if enabled then load else counter) = if enabled then load else counter := by
  cases enabled <;> rfl

/-- The second write of the two entries meets their own values. -/
theorem writeTableByte_idem (ch : WaveChannel) (j : Nat) (value : Byte) :
    (ch.writeTableByte j value).writeTableByte j value = ch.writeTableByte j value := by
  have htable : ((ch.writeTableByte j value).writeTableByte j value).table = (ch.writeTableByte j value).table := by
    ext k hk
    simp only [WaveChannel.writeTableByte, Vector.getElem_setIfInBounds]
    split_ifs <;> rfl
  exact congrArg (fun table => { ch with table := table }) htable

/-! ### The effects -/

/-- Every effect on a pulse channel but a tick: a second write sets the fields to what they are, and its reload finds
the counter reloaded. -/
theorem pulseEffect_idem {e : PulseEffect} (he : e ≠ .tick) (ch : PulseChannel) :
    e.apply (e.apply ch) = e.apply ch := by
  cases e with
  | keep => rfl
  | writeDutyLength value =>
    simp only [PulseEffect.apply, PulseChannel.writeDutyLength, PulseChannel.reload_eq, reloadedCounter_idem]
  | writeVolumeEnvelope value =>
    simp only [PulseEffect.apply, PulseChannel.writeVolumeEnvelope, PulseChannel.reload_eq, reloadedCounter_idem]
  | writeFrequencyLow value =>
    simp only [PulseEffect.apply, PulseChannel.writeFrequencyLow, PulseChannel.reload_eq, reloadedCounter_idem,
      withFrequencyLow_idem]
  | writeTrigger value =>
    simp only [PulseEffect.apply, PulseChannel.writeTrigger, PulseChannel.reload_eq, reloadedCounter_idem,
      withFrequencyHigh_idem]
  | tick => exact absurd rfl he
  | reset => rfl

/-- Every effect on the wave channel but a tick, likewise. -/
theorem waveEffect_idem {e : WaveEffect} (he : e ≠ .tick) (ch : WaveChannel) :
    e.apply (e.apply ch) = e.apply ch := by
  cases e with
  | keep => rfl
  | writeDacPower value =>
    simp only [WaveEffect.apply, WaveChannel.writeDacPower, WaveChannel.reload_eq, reloadedCounter_idem]
  | writeLength value =>
    simp only [WaveEffect.apply, WaveChannel.writeLength, WaveChannel.reload_eq, reloadedCounter_idem]
  | writeVolumeCode value =>
    simp only [WaveEffect.apply, WaveChannel.writeVolumeCode, WaveChannel.reload_eq, reloadedCounter_idem]
  | writeFrequencyLow value =>
    simp only [WaveEffect.apply, WaveChannel.writeFrequencyLow, WaveChannel.reload_eq, reloadedCounter_idem,
      withFrequencyLow_idem]
  | writeTrigger value =>
    simp only [WaveEffect.apply, WaveChannel.writeTrigger, WaveChannel.reload_eq, reloadedCounter_idem,
      withFrequencyHigh_idem]
  | writeTableByte j value => exact writeTableByte_idem ch j value
  | tick => exact absurd rfl he
  | reset => rfl

/-! ### The commands -/

/-- Only a TICK adds to the output history. -/
theorem exec_out_unchanged {i : Instr} {s t : State} (h : exec i s = .next t) (ht : i ≠ .tick) : t.out = s.out := by
  rcases exec_next_cases h with ⟨hi, -⟩ | ⟨-, rfl⟩ | ⟨-, -, rfl⟩
  · exact absurd hi ht
  · rfl
  · rfl

/-- Settles O25: each channel is its effect's, and every effect but a tick is idempotent; no such command adds to the
history, and only RESET touches the buffers. -/
theorem repeatedWritesAddNothing : Obligations.RepeatedWritesAddNothing := by
  intro i s t u ht hs hu
  obtain ⟨hp1, hp2, hw⟩ := exec_channels hs
  obtain ⟨hp1', hp2', hw'⟩ := exec_channels hu
  rw [hp1', hp2', hw', hp1, hp2, hw]
  refine ⟨?_, ?_, ?_, exec_out_unchanged hu ht, fun hr => exec_buffers_unchanged hu hr ht⟩
  · exact pulseEffect_idem (by simpa using ht) s.p1
  · exact pulseEffect_idem (by simpa using ht) s.p2
  · exact waveEffect_idem (by simpa using ht) s.w

end Sys2Proof.Proofs.RepeatedWrites
end

section
/-! PROOF. The two directions of the command word (R101 to R107, R120, R121): a format's word decodes as the format
says, and a word that decodes is the word of a format. -/

namespace Sys2Proof.Proofs.CommandWord

/-! ### From a format to the command -/

/-- The decoder on a word of format WRC; its refusals are those of the channel code and the index (R102, R107). -/
theorem decode_wrcWord (ch : BitVec 2) (idx : BitVec 3) (value : Byte) :
    decode (wrcWord ch idx value) = decodeWrc ch idx value := by
  have hch := ch.isLt
  have hidx := idx.isLt
  have hvalue := value.isLt
  have hword := wrcWord_toNat ch idx value
  generalize wrcWord ch idx value = word at hword
  rw [decode_eq, if_pos (by omega)]
  split_ifs with hreserved
  · exact ((decodeWrc_eq_none ch idx value).mpr (by omega)).symm
  · congr 1 <;> (apply BitVec.eq_of_toNat_eq; rw [BitVec.toNat_ofNat]; omega)

/-- The decoder on a word of format WWT (R103). -/
theorem decode_wwtWord (widx : BitVec 6) (value : Byte) : decode (wwtWord widx value) = some (.wwt widx value) := by
  have hwidx := widx.isLt
  have hvalue := value.isLt
  have hword := wwtWord_toNat widx value
  generalize wwtWord widx value = word at hword
  rw [decode_eq, if_neg (by omega), if_pos (by omega)]
  congr 2 <;> (apply BitVec.eq_of_toNat_eq; rw [BitVec.toNat_ofNat]; omega)

/-- Settles O2: the word of a WRC or WWT command is its format's, which decodes to the operands it was built from; TICK
and RESET are one word each. -/
theorem encodedCommandsDecodeToThemselves : Obligations.EncodedCommandsDecodeToThemselves := by
  intro i
  cases i
  case wwt widx value => exact decode_wwtWord widx value
  case tick => rfl
  case reset => rfl
  all_goals exact decode_wrcWord _ _ _

/-! ### From the command back to a format -/

/-- What a word that decodes can be: a word of a format, and the command that the format's fields spell. -/
theorem decode_some_cases {word : CommandWord} {i : Instr} (h : decode word = some i) :
    (∃ ch idx value, word = wrcWord ch idx value ∧ decodeWrc ch idx value = some i) ∨
      (∃ widx value, word = wwtWord widx value ∧ i = .wwt widx value) ∨
      (word = 0x8000#16 ∧ i = .tick) ∨ (word = 0xC000#16 ∧ i = .reset) := by
  have hlt := word.isLt
  rw [decode_eq] at h
  split_ifs at h with hwrc hreserved hwwt htick hlow hlow
  · refine .inl ⟨_, _, _, BitVec.eq_of_toNat_eq ?_, h⟩
    simp only [wrcWord_toNat, BitVec.toNat_ofNat]
    omega
  · cases h
    refine .inr (.inl ⟨_, _, BitVec.eq_of_toNat_eq ?_, rfl⟩)
    simp only [wwtWord_toNat, BitVec.toNat_ofNat]
    omega
  · cases h
    refine .inr (.inr (.inl ⟨BitVec.eq_of_toNat_eq ?_, rfl⟩))
    rw [BitVec.toNat_ofNat]
    omega
  · cases h
    refine .inr (.inr (.inr ⟨BitVec.eq_of_toNat_eq ?_, rfl⟩))
    rw [BitVec.toNat_ofNat]
    omega

/-- Settles O3: the encoder writes the format's word from the fields the decoder read. -/
theorem decodedWordsEncodeBack : Obligations.DecodedWordsEncodeBack := by
  intro word i h
  rcases decode_some_cases h with ⟨ch, idx, value, rfl, hi⟩ | ⟨widx, value, rfl, rfl⟩ | ⟨rfl, rfl⟩ | ⟨rfl, rfl⟩
  · exact encode_of_decodeWrc hi
  · rfl
  · rfl
  · rfl

/-! ### The reserved words -/

/-- Settles O4: family by family of the decoder over the word as a number. Outside the listed WRC words the channel code
is at most 2 and the index at most 4, so `decodeWrc` answers. -/
theorem reservedWordsAreTheSpecsList : Obligations.ReservedWordsAreTheSpecsList := by
  intro word
  rw [decode_eq]
  split_ifs with hwrc hreserved hwwt htick hlow hlow
  · exact iff_of_true rfl (.inl ⟨hwrc, hreserved⟩)
  · rw [decodeWrc_eq_none, BitVec.toNat_ofNat, BitVec.toNat_ofNat]
    omega
  · exact iff_of_false nofun (by omega)
  · exact iff_of_false nofun (by omega)
  · exact iff_of_true rfl (.inr ⟨by omega, hlow⟩)
  · exact iff_of_false nofun (by omega)
  · exact iff_of_true rfl (.inr ⟨by omega, hlow⟩)

/-! ### The opcode map -/

/-- The word of a command selects the command's own row. -/
theorem encode_selects_opcodeRow (i : Instr) : encode i &&& (opcodeRow i).2 = (opcodeRow i).1 := by
  cases i
  case wwt widx value => exact Laws.MatchesRow.wwt widx value
  case tick => exact Laws.MatchesRow.tick
  case reset => exact Laws.MatchesRow.reset
  all_goals exact Laws.MatchesRow.wrcWord_masked _ _ _

/-- The row of a WRC command is the word of its channel code and index, under the mask of the high byte. -/
theorem opcodeRow_of_decodeWrc {ch : BitVec 2} {idx : BitVec 3} {value : Byte} {i : Instr}
    (h : decodeWrc ch idx value = some i) : opcodeRow i = (wrcWord ch idx 0, 0xFF00#16) := by
  have hmask : (opcodeRow i).2 = 0xFF00#16 := by
    unfold decodeWrc at h
    split at h <;> cases h <;> rfl
  have hmatch := encode_selects_opcodeRow i
  rw [hmask, encode_of_decodeWrc h, Laws.MatchesRow.wrcWord_masked] at hmatch
  exact Prod.ext hmatch.symm hmask

/-- Whether WRC fields spell a command does not depend on the byte written. -/
theorem exists_decodeWrc {ch : BitVec 2} {idx : BitVec 3} {value : Byte} {i : Instr}
    (h : decodeWrc ch idx value = some i) (value' : Byte) : ∃ j, decodeWrc ch idx value' = some j := by
  rw [← Option.ne_none_iff_exists', Ne, decodeWrc_eq_none, ← decodeWrc_eq_none ch idx value, h]
  exact nofun

/-- A word that selects the row of a WRC command differs from that command's word in the byte written alone. -/
theorem eq_wrcWord_of_masked {word : CommandWord} {ch : BitVec 2} {idx : BitVec 3}
    (h : word &&& 0xFF00#16 = wrcWord ch idx 0) : word = wrcWord ch idx (BitVec.ofNat 8 word.toNat) := by
  have hhigh : word.toNat / 2 ^ 8 * 2 ^ 8 = (wrcWord ch idx 0).toNat := by rw [← and_shifted_mask, ← h]; rfl
  apply BitVec.eq_of_toNat_eq
  rw [wrcWord_toNat] at hhigh ⊢
  simp only [BitVec.toNat_ofNat] at hhigh ⊢
  omega

/-- A word that selects the row of WWT has its format. -/
theorem eq_wwtWord_of_masked {word : CommandWord} (h : word &&& 0xC000#16 = 0x4000#16) :
    word = wwtWord (BitVec.ofNat 6 (word.toNat / 2 ^ 8)) (BitVec.ofNat 8 word.toNat) := by
  have hhigh : word.toNat / 2 ^ 14 * 2 ^ 14 = (0x4000#16).toNat := by rw [← and_shifted_mask, ← h]; rfl
  apply BitVec.eq_of_toNat_eq
  simp only [wwtWord_toNat, BitVec.toNat_ofNat] at hhigh ⊢
  omega

/-- A word that selects a row decodes to a command of that row. -/
theorem exists_decode_of_selects {word : CommandWord} {i : Instr} (h : word &&& (opcodeRow i).2 = (opcodeRow i).1) :
    ∃ j, decode word = some j ∧ opcodeRow j = opcodeRow i := by
  rcases decode_some_cases (encodedCommandsDecodeToThemselves i) with
    ⟨ch, idx, value, -, hi⟩ | ⟨widx, value, -, rfl⟩ | ⟨-, rfl⟩ | ⟨-, rfl⟩
  · rw [opcodeRow_of_decodeWrc hi] at h ⊢
    obtain ⟨j, hj⟩ := exists_decodeWrc hi (BitVec.ofNat 8 word.toNat)
    exact ⟨j, by rw [eq_wrcWord_of_masked h, decode_wrcWord, hj], opcodeRow_of_decodeWrc hj⟩
  · exact ⟨.wwt _ _, (congrArg decode (eq_wwtWord_of_masked h)).trans (decode_wwtWord _ _), rfl⟩
  · obtain rfl : word = encode .tick := BitVec.and_allOnes.symm.trans h
    exact ⟨.tick, encodedCommandsDecodeToThemselves .tick, rfl⟩
  · obtain rfl : word = encode .reset := BitVec.and_allOnes.symm.trans h
    exact ⟨.reset, encodedCommandsDecodeToThemselves .reset, rfl⟩

/-- Settles O5: a word that selects two rows decodes to one command, whose row both are; a word that decodes is the word
of its command. -/
theorem opcodeRowsAreDisjointAndComplete : Obligations.OpcodeRowsAreDisjointAndComplete := by
  refine ⟨fun word i j hi hj => ?_, fun word i => exists_decode_of_selects, fun word i h => ?_⟩
  · obtain ⟨k, hk, hki⟩ := exists_decode_of_selects hi
    obtain ⟨l, hl, hlj⟩ := exists_decode_of_selects hj
    cases hk.symm.trans hl
    exact hki.symm.trans hlj
  · rw [← decodedWordsEncodeBack word i h]
    exact encode_selects_opcodeRow i

/-! ### Words written out, and words refused -/

/-- Settles O1: eight closed words. -/
theorem writtenOutWordsDecode : Obligations.WrittenOutWordsDecode := by
  unfold Obligations.WrittenOutWordsDecode
  decide

/-- Settles O9: `step` on a word at the port turns on what the word decodes to. -/
theorem stepRefusesReservedWords : Obligations.StepRefusesReservedWords := by
  intro s word rest hport hdecode
  rw [Machine.step_of_port hport, hdecode]

end Sys2Proof.Proofs.CommandWord
end

section
/-! PROOF. The pseudo-commands TRIG and WAVE16: what they assemble to, and what their writes leave (R124). -/

namespace Sys2Proof.Proofs.PseudoCommands

open Sys2Proof.Machine Sys2Proof.Rules Sys2Proof.Proofs.Effects

/-- A run whose first command completes is the run of the rest. -/
theorem runAll_cons {i : Instr} {s s' : State} (h : exec i s = .next s') (rest : List Instr) :
    runAll (i :: rest) s = runAll rest s' := by
  simp only [runAll, List.foldl_cons, andThen_next, h]

/-! ### TRIG -/

/-- The index-3 write of a channel (R134, R140). -/
def frequencyLowWrite : Channel → Byte → Instr
  | .p1 => .wrcP1_3
  | .p2 => .wrcP2_3
  | .w => .wrcW_3

/-- The index-4 write of a channel (R135, R141). -/
def triggerWrite : Channel → Byte → Instr
  | .p1 => .wrcP1_4
  | .p2 => .wrcP2_4
  | .w => .wrcW_4

theorem assembleWrc_three (ch : Channel) (value : Byte) : assembleWrc ch 3 value = some (frequencyLowWrite ch value) := by
  cases ch <;> rfl

theorem assembleWrc_four (ch : Channel) (value : Byte) : assembleWrc ch 4 value = some (triggerWrite ch value) := by
  cases ch <;> rfl

theorem assemble_trig {ch : Channel} {f le : Nat} (hf : f ≤ 2047) (hle : le ≤ 1) :
    assemble (.trig ch f le) = some [frequencyLowWrite ch (BitVec.ofNat 8 (f % 256)),
      triggerWrite ch (BitVec.ofNat 8 (128 + 64 * le + f / 256))] := by
  have hwf : (WrittenCommand.trig ch f le).wellFormed = true := by simp [WrittenCommand.wellFormed, hf, hle]
  simp only [assemble, hwf, if_true, assembleWrc_three, assembleWrc_four]

/-- The two frequency writes of a channel replace all 11 bits. -/
theorem withFrequencyHigh_withFrequencyLow_toNat (frequency : BitVec 11) (low high : Byte) :
    (withFrequencyHigh (withFrequencyLow frequency low) high).toNat = high.toNat % 8 * 256 + low.toNat := by
  have hlow := low.isLt
  rw [withFrequencyHigh_toNat, withFrequencyLow_toNat]
  omega

/-- Beside the fields they set, both writes change only the length counter (R136, R142), so the channel's tone is what
the two bytes say. -/
theorem runAll_frequency_writes (ch : Channel) (low high : Byte) (s : State) :
    ∃ t, runAll [frequencyLowWrite ch low, triggerWrite ch high] s = .next t ∧
      channelTone t ch = (high.toNat % 8 * 256 + low.toNat, triggerBit high, lengthEnableBit high) := by
  cases ch
  case p1 | p2 =>
    refine ⟨_, rfl, ?_⟩
    simp [channelTone, PulseChannel.writeTrigger, PulseChannel.writeFrequencyLow, PulseChannel.reload_eq,
      withFrequencyHigh_withFrequencyLow_toNat]
  case w =>
    refine ⟨_, rfl, ?_⟩
    simp [channelTone, WaveChannel.writeTrigger, WaveChannel.writeFrequencyLow, WaveChannel.reload_eq,
      withFrequencyHigh_withFrequencyLow_toNat]

/-- Settles O6: the bytes of TRIG hold the frequency's two parts, a set trigger bit and the length bit. -/
theorem trigStartsTheChannelAtItsFrequency : Obligations.TrigStartsTheChannelAtItsFrequency := by
  intro ch f le hf hle
  refine ⟨_, _, assemble_trig hf hle, fun s => ?_⟩
  obtain ⟨t, hrun, htone⟩ := runAll_frequency_writes ch (BitVec.ofNat 8 (f % 256))
    (BitVec.ofNat 8 (128 + 64 * le + f / 256)) s
  refine ⟨t, hrun, htone.trans ?_⟩
  have hhigh : (BitVec.ofNat 8 (128 + 64 * le + f / 256)).toNat = 128 + 64 * le + f / 256 := by
    rw [BitVec.toNat_ofNat]
    omega
  rw [triggerBit_eq, lengthEnableBit_eq, hhigh, BitVec.toNat_ofNat, Prod.mk.injEq, Prod.mk.injEq, decide_eq_true_eq,
    decide_eq_decide]
  omega

/-! ### WAVE16 -/

/-- The byte whose nibbles entries `2j` and `2j+1` of a wave table are (R143). -/
def tableByte (table : Vector Nibble 32) (j : Fin 16) : Byte := table[2 * j.val] ++ table[2 * j.val + 1]

theorem highNibble_append_lowNibble (value : Byte) : highNibble value ++ lowNibble value = value := by
  apply BitVec.eq_of_toNat_eq
  rw [append_toNat_add, highNibble, lowNibble, extractLsb'_toNat_div, extractLsb'_toNat_div]
  omega

/-- A table-byte write sets its own byte and leaves the other fifteen. -/
theorem tableByte_writeTableByte (ch : WaveChannel) (j k : Fin 16) (value : Byte) :
    tableByte (ch.writeTableByte j value).table k = if k = j then value else tableByte ch.table k := by
  simp only [tableByte, WaveChannel.writeTableByte, Vector.getElem_setIfInBounds]
  by_cases h : k = j
  · subst h
    rw [if_pos rfl, if_neg (by omega), if_pos rfl, if_pos rfl, highNibble_append_lowNibble]
  · rw [if_neg h, if_neg (by omega), if_neg (by omega), if_neg (by omega), if_neg (by omega)]

theorem assemble_wave16 {bytes : List Nat} (hlen : bytes.length = 16) (hbyte : ∀ b ∈ bytes, b ≤ 255) :
    assemble (.wave16 bytes) = some (assembleWaveBytes 0 bytes) := by
  have hwf : (WrittenCommand.wave16 bytes).wellFormed = true := by simpa [WrittenCommand.wellFormed, hlen] using hbyte
  simp only [assemble, hwf, if_true]

theorem assembleWaveBytes_length (j : Nat) (bytes : List Nat) : (assembleWaveBytes j bytes).length = bytes.length := by
  induction bytes generalizing j with
  | nil => rfl
  | cons b rest ih => simp [assembleWaveBytes, ih]

theorem exec_wwt_of_fin (j : Fin 16) (value : Byte) (s : State) :
    exec (.wwt (BitVec.ofNat 6 j) value) s = .next ((s.setW (s.w.writeTableByte j value)).respond .ok) := by
  have hj : (BitVec.ofNat 6 j.val).toNat = j := by rw [BitVec.toNat_ofNat]; omega
  have hexec : exec (.wwt (BitVec.ofNat 6 j) value) s = execWwt (BitVec.ofNat 6 j) value s := rfl
  rw [hexec, execWwt, hj, if_pos (by omega)]

/-- The writes of the bytes from index `j` on put them there in order and leave the bytes below `j`. -/
theorem runAll_assembleWaveBytes (bytes : List Nat) (j : Nat) (hj : j + bytes.length ≤ 16) (s : State) :
    ∃ t, runAll (assembleWaveBytes j bytes) s = .next t ∧ ∀ k : Fin 16,
      (k < j → tableByte t.w.table k = tableByte s.w.table k) ∧
      (j ≤ k → k < j + bytes.length → tableByte t.w.table k = BitVec.ofNat 8 (bytes.getD (k - j) 0)) := by
  induction bytes generalizing j s with
  | nil => exact ⟨s, rfl, fun k => ⟨fun _ => rfl, fun h h' => absurd h' (by simpa using h)⟩⟩
  | cons b rest ih =>
    rw [List.length_cons] at hj
    have hexec := exec_wwt_of_fin ⟨j, by omega⟩ (BitVec.ofNat 8 b) s
    obtain ⟨t, hrun, htable⟩ := ih (j + 1) (by omega) ((s.setW (s.w.writeTableByte j (BitVec.ofNat 8 b))).respond .ok)
    refine ⟨t, (runAll_cons hexec _).trans hrun, fun k => ?_⟩
    obtain ⟨hbelow, habove⟩ := htable k
    have hwrite := tableByte_writeTableByte s.w ⟨j, by omega⟩ k (BitVec.ofNat 8 b)
    refine ⟨fun hk => ?_, fun hk hlt => ?_⟩
    · rw [hbelow (by omega)]
      exact hwrite.trans (if_neg (by rw [Fin.ext_iff]; exact hk.ne))
    · rcases hk.eq_or_lt with hk | hk
      · rw [hbelow (by omega), ← hk, Nat.sub_self]
        exact hwrite.trans (if_pos (Fin.ext hk.symm))
      · rw [habove hk (by rw [List.length_cons] at hlt; omega), show k.val - j = k.val - (j + 1) + 1 by omega,
          List.getD_cons_succ]

/-- Settles O7: the sixteen writes put byte `j` of the list at byte `j` of the table, whose nibbles are the quotient and
the remainder by 16. -/
theorem wave16FillsTheTable : Obligations.Wave16FillsTheTable := by
  intro bytes hlen hbyte
  refine ⟨_, assemble_wave16 hlen hbyte, (assembleWaveBytes_length 0 bytes).trans hlen, fun s => ?_⟩
  obtain ⟨t, hrun, htable⟩ := runAll_assembleWaveBytes bytes 0 (by omega) s
  refine ⟨t, hrun, fun j hj => ?_⟩
  have hword := congrArg BitVec.toNat ((htable ⟨j, hj⟩).2 (Nat.zero_le j) (by simpa [hlen] using hj))
  have hb : bytes.getD j 0 ≤ 255 := by
    rw [List.getD_eq_getElem _ _ (by omega)]
    exact hbyte _ (List.getElem_mem _)
  have hlow := (t.w.table[2 * j + 1]).isLt
  rw [tableByte, append_toNat_add, BitVec.toNat_ofNat, Nat.sub_zero] at hword
  dsimp only at hword
  omega

end Sys2Proof.Proofs.PseudoCommands
end

section
/-! PROOF. The register writes: the whole next state of each, what they reload and what they leave alone, and the one
response of every command (R130 to R146, R239). -/

namespace Sys2Proof.Proofs.RegisterWrites

open Sys2Proof.Machine Sys2Proof.Rules Sys2Proof.Proofs.Effects Sys2Proof.Proofs.StateRules

/-! ### Every command: its response and its frame -/

/-- Settles O57: a TICK that completes answers `OK`, RESET too, and a write answers as the taxonomy says. -/
theorem everyCommandAnswersOnce : Obligations.EveryCommandAnswersOnce := by
  intro i s t h
  rcases exec_next_cases h with ⟨rfl, htick⟩ | ⟨rfl, rfl⟩ | ⟨-, -, rfl⟩
  · obtain ⟨-, -, -, -, -, -, -, hresponses, -⟩ := execTick_next_effect htick
    exact hresponses
  · rfl
  · rfl

/-- Settles O26: RESET completes by its definition, and every other command is a write. -/
theorem writesAndResetAlwaysComplete : Obligations.WritesAndResetAlwaysComplete := by
  intro i s ht
  by_cases hr : i = .reset
  · subst hr; exact ⟨_, rfl⟩
  · exact ⟨_, exec_eq_applyEffects ht hr s⟩

/-- Settles O27: a write is its channel effects and its response, and only TICK and RESET change `ticks`. -/
theorem registerWritesTouchOnlyChannelFields : Obligations.RegisterWritesTouchOnlyChannelFields := by
  intro i s ht hr
  have h := exec_eq_applyEffects ht hr s
  exact ⟨_, h, rfl, by simpa [ht, hr] using ticksCountPlayingTicks i s _ h⟩

/-! ### The whole next state of a control-register write -/

theorem pulseLengthField_toNat (value : Byte) : (pulseLengthField value).toNat = value.toNat % 64 := by
  rw [pulseLengthField, extractLsb'_toNat_div]
  omega

theorem withFrequencyLow_eq_ofNat (frequency : BitVec 11) (value : Byte) :
    withFrequencyLow frequency value = BitVec.ofNat 11 (frequency.toNat / 256 * 256 + value.toNat) := by
  rw [← withFrequencyLow_toNat, BitVec.ofNat_toNat, BitVec.setWidth_eq]

theorem withFrequencyHigh_eq_ofNat (frequency : BitVec 11) (value : Byte) :
    withFrequencyHigh frequency value = BitVec.ofNat 11 (value.toNat % 8 * 256 + frequency.toNat % 256) := by
  rw [← withFrequencyHigh_toNat, BitVec.ofNat_toNat, BitVec.setWidth_eq]

/-- A write that puts `ch` in `P1` and answers `OK`, with the channel written out as `ch'`. -/
theorem exec_eq_of_setP1 {i : Instr} {s : State} {ch ch' : PulseChannel}
    (hi : exec i s = .next ((s.setP1 ch).respond .ok)) (hch : ch = ch') :
    exec i s = .next { s with p1 := ch', responses := s.responses ++ [.ok] } := by
  rw [hi, hch]; rfl

/-- The same for `P2`. -/
theorem exec_eq_of_setP2 {i : Instr} {s : State} {ch ch' : PulseChannel}
    (hi : exec i s = .next ((s.setP2 ch).respond .ok)) (hch : ch = ch') :
    exec i s = .next { s with p2 := ch', responses := s.responses ++ [.ok] } := by
  rw [hi, hch]; rfl

/-- The same for `W`. -/
theorem exec_eq_of_setW {i : Instr} {s : State} {ch ch' : WaveChannel}
    (hi : exec i s = .next ((s.setW ch).respond .ok)) (hch : ch = ch') :
    exec i s = .next { s with w := ch', responses := s.responses ++ [.ok] } := by
  rw [hi, hch]; rfl

/-! #### The pulse channels: one equation per index serves both -/

/-- Settles O11: index 0 is a response and no more (R131). -/
theorem pulseIndexZeroIsANoOp : Obligations.PulseIndexZeroIsANoOp := fun _ _ => ⟨rfl, rfl⟩

theorem writeDutyLength_eq (ch : PulseChannel) (value : Byte) :
    ch.writeDutyLength value = { ch with
      duty := BitVec.ofNat 2 (value.toNat / 64)
      lengthLoad := BitVec.ofNat 6 (value.toNat % 64)
      lengthCounter := if ch.lengthEnabled = true then (value.toNat % 64 : Nat) else ch.lengthCounter } := by
  rw [PulseChannel.writeDutyLength, PulseChannel.reload_eq, pulseLengthField_toNat, dutyField_eq, pulseLengthField_eq]

/-- Settles O12: the fields are those of R109, and the reload reads the load just written. -/
theorem pulseDutyLengthWrite : Obligations.PulseDutyLengthWrite := fun value s =>
  ⟨exec_eq_of_setP1 rfl (writeDutyLength_eq s.p1 value), exec_eq_of_setP2 rfl (writeDutyLength_eq s.p2 value)⟩

theorem writeVolumeEnvelope_eq (ch : PulseChannel) (value : Byte) :
    ch.writeVolumeEnvelope value = { ch with
      startingVolume := BitVec.ofNat 4 (value.toNat / 16)
      currentVolume := BitVec.ofNat 4 (value.toNat / 16)
      envelopeAdd := decide (value.toNat / 8 % 2 = 1)
      envelopePeriod := BitVec.ofNat 3 (value.toNat % 8)
      lengthCounter := if ch.lengthEnabled = true then ch.lengthLoad.toNat else ch.lengthCounter } := by
  rw [PulseChannel.writeVolumeEnvelope, PulseChannel.reload_eq, volumeField_eq, envelopeAddBit_eq,
    envelopePeriodField_eq]

/-- Settles O13: the fields are those of R110, beside the reload. -/
theorem pulseVolumeEnvelopeWrite : Obligations.PulseVolumeEnvelopeWrite := fun value s =>
  ⟨exec_eq_of_setP1 rfl (writeVolumeEnvelope_eq s.p1 value), exec_eq_of_setP2 rfl (writeVolumeEnvelope_eq s.p2 value)⟩

theorem writeFrequencyLow_eq (ch : PulseChannel) (value : Byte) :
    ch.writeFrequencyLow value = { ch with
      frequency := BitVec.ofNat 11 (ch.frequency.toNat / 256 * 256 + value.toNat)
      lengthCounter := if ch.lengthEnabled = true then ch.lengthLoad.toNat else ch.lengthCounter } := by
  rw [PulseChannel.writeFrequencyLow, PulseChannel.reload_eq, withFrequencyLow_eq_ofNat]

/-- Settles O14: the mask of R119 as arithmetic, beside the reload. -/
theorem pulseFrequencyLowWrite : Obligations.PulseFrequencyLowWrite := fun value s =>
  ⟨exec_eq_of_setP1 rfl (writeFrequencyLow_eq s.p1 value), exec_eq_of_setP2 rfl (writeFrequencyLow_eq s.p2 value)⟩

theorem writeTrigger_eq (ch : PulseChannel) (value : Byte) :
    ch.writeTrigger value = { ch with
      playing := decide (value.toNat / 128 = 1)
      lengthEnabled := decide (value.toNat / 64 % 2 = 1)
      frequency := BitVec.ofNat 11 (value.toNat % 8 * 256 + ch.frequency.toNat % 256)
      lengthCounter := if value.toNat / 64 % 2 = 1 then ch.lengthLoad.toNat else ch.lengthCounter } := by
  simp only [PulseChannel.writeTrigger, PulseChannel.reload_eq, triggerBit_eq, lengthEnableBit_eq,
    withFrequencyHigh_eq_ofNat, decide_eq_true_eq]

/-- Settles O15: the bits of R112, and the reload reads the `lengthEnabled` just written. -/
theorem pulseTriggerWrite : Obligations.PulseTriggerWrite := fun value s =>
  ⟨exec_eq_of_setP1 rfl (writeTrigger_eq s.p1 value), exec_eq_of_setP2 rfl (writeTrigger_eq s.p2 value)⟩

/-! #### The wave channel -/

theorem writeDacPower_eq (ch : WaveChannel) (value : Byte) :
    ch.writeDacPower value = { ch with
      dacPower := decide (value.toNat / 128 = 1)
      lengthCounter := if ch.lengthEnabled = true then ch.lengthLoad.toNat else ch.lengthCounter } := by
  rw [WaveChannel.writeDacPower, WaveChannel.reload_eq, dacPowerBit_eq]

/-- Settles O16: the bit of R113, beside the reload. -/
theorem waveDacPowerWrite : Obligations.WaveDacPowerWrite := fun value s =>
  exec_eq_of_setW rfl (writeDacPower_eq s.w value)

/-- Settles O17: the reload reads the load just written, which is the whole byte. -/
theorem waveLengthWrite : Obligations.WaveLengthWrite := fun value s =>
  exec_eq_of_setW rfl (WaveChannel.reload_eq { s.w with lengthLoad := value })

theorem writeVolumeCode_eq (ch : WaveChannel) (value : Byte) :
    ch.writeVolumeCode value = { ch with
      volumeCode := BitVec.ofNat 2 (value.toNat / 32 % 4)
      lengthCounter := if ch.lengthEnabled = true then ch.lengthLoad.toNat else ch.lengthCounter } := by
  rw [WaveChannel.writeVolumeCode, WaveChannel.reload_eq, volumeCodeField_eq]

/-- Settles O18: the field of R115, beside the reload. -/
theorem waveVolumeCodeWrite : Obligations.WaveVolumeCodeWrite := fun value s =>
  exec_eq_of_setW rfl (writeVolumeCode_eq s.w value)

theorem waveWriteFrequencyLow_eq (ch : WaveChannel) (value : Byte) :
    ch.writeFrequencyLow value = { ch with
      frequency := BitVec.ofNat 11 (ch.frequency.toNat / 256 * 256 + value.toNat)
      lengthCounter := if ch.lengthEnabled = true then ch.lengthLoad.toNat else ch.lengthCounter } := by
  rw [WaveChannel.writeFrequencyLow, WaveChannel.reload_eq, withFrequencyLow_eq_ofNat]

/-- Settles O19: the mask of R119 as arithmetic, beside the reload. -/
theorem waveFrequencyLowWrite : Obligations.WaveFrequencyLowWrite := fun value s =>
  exec_eq_of_setW rfl (waveWriteFrequencyLow_eq s.w value)

theorem waveWriteTrigger_eq (ch : WaveChannel) (value : Byte) :
    ch.writeTrigger value = { ch with
      playing := decide (value.toNat / 128 = 1)
      lengthEnabled := decide (value.toNat / 64 % 2 = 1)
      frequency := BitVec.ofNat 11 (value.toNat % 8 * 256 + ch.frequency.toNat % 256)
      lengthCounter := if value.toNat / 64 % 2 = 1 then ch.lengthLoad.toNat else ch.lengthCounter } := by
  simp only [WaveChannel.writeTrigger, WaveChannel.reload_eq, triggerBit_eq, lengthEnableBit_eq,
    withFrequencyHigh_eq_ofNat, decide_eq_true_eq]

/-- Settles O20: the bits of R112, and the reload reads the `lengthEnabled` just written. -/
theorem waveTriggerWrite : Obligations.WaveTriggerWrite := fun value s =>
  exec_eq_of_setW rfl (waveWriteTrigger_eq s.w value)

/-! ### The wave table -/

theorem writeTableByte_getElem (ch : WaveChannel) (j : Nat) (value : Byte) (e : Nat) (he : e < 32) :
    (ch.writeTableByte j value).table[e] =
      if e = 2 * j then BitVec.ofNat 4 (value.toNat / 16)
      else if e = 2 * j + 1 then BitVec.ofNat 4 (value.toNat % 16)
      else ch.table[e] := by
  simp only [WaveChannel.writeTableByte, Vector.getElem_setIfInBounds, highNibble_eq, lowNibble_eq]
  by_cases heven : e = 2 * j
  · rw [if_neg (by omega), if_pos heven.symm, if_pos heven]
  · simp only [eq_comm (b := e), if_neg heven]

/-- Settles O21: the byte's two entries, and the index is in bounds. -/
theorem waveTableByteWrite : Obligations.WaveTableByteWrite := by
  intro widx value s hle
  have hexec : exec (.wwt widx value) s = .next ((s.setW (s.w.writeTableByte widx.toNat value)).respond .ok) :=
    if_pos hle
  exact ⟨_, exec_eq_of_setW hexec rfl, writeTableByte_getElem s.w widx.toNat value⟩

/-- Settles O22: above 15 WWT raises its error, which is a response and no more. -/
theorem waveTableIndexAbove15IsInvalidArgument : Obligations.WaveTableIndexAbove15IsInvalidArgument :=
  fun _ _ _ hge => if_neg (Nat.not_le.2 hge)

/-! ### The reload at the end of a control-register write -/

theorem reload_lengthCounter (ch : PulseChannel) : ch.reload.lengthCounter =
    if ch.reload.lengthEnabled = true then (ch.reload.lengthLoad.toNat : Int) else ch.lengthCounter := by
  rw [PulseChannel.reload_eq]

theorem waveReload_lengthCounter (ch : WaveChannel) : ch.reload.lengthCounter =
    if ch.reload.lengthEnabled = true then (ch.reload.lengthLoad.toNat : Int) else ch.lengthCounter := by
  rw [WaveChannel.reload_eq]

/-- A write of `P1` ends in the reload of a channel whose counter the write has not set. -/
theorem exec_reloads_of_writesP1 {i : Instr} (hw : writesP1 i = true) (s : State) :
    ∃ ch : PulseChannel, exec i s = .next ((s.setP1 ch.reload).respond .ok) ∧
      ch.lengthCounter = s.p1.lengthCounter := by
  cases i
  case wrcP1_1 | wrcP1_2 | wrcP1_3 | wrcP1_4 => exact ⟨_, rfl, rfl⟩
  all_goals simp [writesP1] at hw

/-- So does a write of `P2`. -/
theorem exec_reloads_of_writesP2 {i : Instr} (hw : writesP2 i = true) (s : State) :
    ∃ ch : PulseChannel, exec i s = .next ((s.setP2 ch.reload).respond .ok) ∧
      ch.lengthCounter = s.p2.lengthCounter := by
  cases i
  case wrcP2_1 | wrcP2_2 | wrcP2_3 | wrcP2_4 => exact ⟨_, rfl, rfl⟩
  all_goals simp [writesP2] at hw

/-- So does a control-register write of `W`, index 0 included (D5). -/
theorem exec_reloads_of_writesW {i : Instr} (hw : writesW i = true) (s : State) :
    ∃ ch : WaveChannel, exec i s = .next ((s.setW ch.reload).respond .ok) ∧
      ch.lengthCounter = s.w.lengthCounter := by
  cases i
  case wrcW_0 | wrcW_1 | wrcW_2 | wrcW_3 | wrcW_4 => exact ⟨_, rfl, rfl⟩
  all_goals simp [writesW] at hw

/-- Settles O23: the write ends in a reload, and index 0 leaves the state but for its response. -/
theorem pulseWritesReloadTheLengthCounter : Obligations.PulseWritesReloadTheLengthCounter := by
  refine fun i s => ⟨fun hw => ?_, fun hw => ?_, fun value hi => ?_⟩
  · obtain ⟨ch, hexec, hcounter⟩ := exec_reloads_of_writesP1 hw s
    exact ⟨_, hexec, hcounter ▸ reload_lengthCounter ch⟩
  · obtain ⟨ch, hexec, hcounter⟩ := exec_reloads_of_writesP2 hw s
    exact ⟨_, hexec, hcounter ▸ reload_lengthCounter ch⟩
  · obtain ⟨hp1, hp2⟩ := pulseIndexZeroIsANoOp value s
    rcases hi with rfl | rfl
    · exact ⟨_, hp1, rfl, rfl⟩
    · exact ⟨_, hp2, rfl, rfl⟩

/-- Settles O24: the write ends in a reload. -/
theorem waveWritesReloadTheLengthCounter : Obligations.WaveWritesReloadTheLengthCounter := by
  intro i s hw
  obtain ⟨ch, hexec, hcounter⟩ := exec_reloads_of_writesW hw s
  exact ⟨_, hexec, hcounter ▸ waveReload_lengthCounter ch⟩

end Sys2Proof.Proofs.RegisterWrites
end

section
/-! PROOF. The channel ticks one at a time: when they fault or answer false, the channel they leave and the samples they
define (R161 to R174, R190). -/

namespace Sys2Proof.Proofs.PulseTick

open Sys2Proof.Machine Sys2Proof.Rules Sys2Proof.Proofs.Effects Sys2Proof.Proofs.StepRange

/-! ### Faults and silent channels -/

/-- Settles O33: the one faulting answer of each channel tick is that of a playing channel of `waveLength` 0. -/
theorem channelTicksFaultOnZeroWaveLength : Obligations.ChannelTicksFaultOnZeroWaveLength := by
  refine ⟨fun ch N => ?_, fun params ch N => ?_⟩
  · rw [← pulseWaveLength_eq_zero]
    rcases pulseTick_cases ch N with ⟨hp, e⟩ | ⟨hp, hL, e⟩ | ⟨hp, hL, samples, -, -, e⟩
    · simp [e, hp]
    · simp [e, hp, hL]
    · simp [e, hL]
  · rw [← waveWaveLength_eq_zero]
    rcases waveTick_cases params ch N with ⟨hp, e⟩ | ⟨hp, hL, e⟩ | ⟨hp, hL, samples, -, -, e⟩
    · simp [e, hp]
    · simp [e, hp, hL]
    · simp [e, hL]

theorem pulseTick_of_silent {ch : PulseChannel} (hp : ch.playing = false) (N : Nat) : pulseTick ch N = .ok none := by
  simp [pulseTick, hp]

theorem tick_apply_of_silent {ch : PulseChannel} (hp : ch.playing = false) : PulseEffect.tick.apply ch = ch := by
  simp [PulseEffect.tick_apply, hp]

/-- Settles O28: without an answer of the channel tick the mixer keeps the state, and TICK's effect keeps the channel. -/
theorem silentPulseChannelsAreLeftAlone : Obligations.SilentPulseChannelsAreLeftAlone := by
  refine ⟨fun ch N hp => pulseTick_of_silent hp N, fun n s => ⟨fun hp => ?_, fun hp => ?_⟩, fun s t h => ?_⟩
  · simp [tickP1, pulseTick_of_silent hp]
  · simp [tickP2, pulseTick_of_silent hp]
  · obtain ⟨hp1, hp2, -⟩ := exec_channels h
    exact ⟨fun hp => hp1.trans (tick_apply_of_silent hp), fun hp => hp2.trans (tick_apply_of_silent hp)⟩

/-! ### The channel after a tick -/

theorem envelopeDue_iff (period : BitVec 3) (ticks : Nat) :
    envelopeDue period ticks = true ↔ period.toNat ≠ 0 ∧ ticks % period.toNat = 0 := by
  simp [envelopeDue]

theorem envelopeStep_eq_ofNat (add : Bool) (v : BitVec 4) :
    envelopeStep add v = BitVec.ofNat 4 (if add = true then min 15 (v.toNat + 3) else v.toNat - 3) := by
  rw [← envelopeStep_toNat, BitVec.ofNat_toNat, BitVec.setWidth_eq]

/-- The envelope of a playing tick as R164 has it, on the count already incremented. -/
theorem advance_currentVolume_toNat (ch : PulseChannel) :
    ch.advance.currentVolume.toNat =
      if ch.envelopePeriod.toNat ≠ 0 ∧ (ch.ticks + 1) % ch.envelopePeriod.toNat = 0 then
        if ch.envelopeAdd = true then min 15 (ch.currentVolume.toNat + 3) else ch.currentVolume.toNat - 3
      else ch.currentVolume.toNat := by
  simp only [PulseChannel.advance, envelopeDue_iff, apply_ite BitVec.toNat, envelopeStep_toNat]

/-- Clamped steps of 3 add up to one clamped step. -/
theorem envelopeStep_iterate_toNat (add : Bool) (v : BitVec 4) (k : Nat) :
    ((envelopeStep add)^[k] v).toNat = if add = true then min 15 (v.toNat + 3 * k) else v.toNat - 3 * k := by
  have hv := v.isLt
  induction k with
  | zero => rw [Function.iterate_zero_apply]; split_ifs <;> omega
  | succ k ih =>
    rw [Function.iterate_succ_apply', envelopeStep_toNat, ih]
    split_ifs <;> omega

/-- Settles O30: the only true answer of a pulse tick carries the advanced channel. -/
theorem pulseTickCountsAndStepsTheEnvelope : Obligations.PulseTickCountsAndStepsTheEnvelope := by
  refine ⟨fun ch ch' N samples h => ?_, envelopeStep_iterate_toNat⟩
  rcases pulseTick_cases ch N with ⟨-, e⟩ | ⟨-, -, e⟩ | ⟨-, -, x, -, -, e⟩ <;> rw [e] at h <;> cases h
  exact ⟨rfl, advance_currentVolume_toNat ch⟩

/-- The channel of steps 1 to 3 is the rules' channel. -/
theorem advance_eq_pulseAfterTick {ch : PulseChannel} (hp : ch.playing = true) : ch.advance = pulseAfterTick ch := by
  rw [pulseAfterTick, if_pos hp]
  simp only [PulseChannel.advance, hp, steppedCounter, steppedPlaying_eq, envelopeDue_iff, envelopeStep_eq_ofNat]

/-! ### The samples of a period -/

/-- The duty table's high steps are one run, from the first to the last. -/
theorem dutyStepHigh_eq_highSteps : ∀ (duty : BitVec 2) (step : Fin 8),
    dutyStepHigh duty step = decide ((highSteps duty).1 ≤ step ∧ step ≤ (highSteps duty).2) := by
  decide

/-- Inside a period a sample is high when its step lies in the duty's run (R165, R167). -/
theorem pulsePattern_eq (ch : PulseChannel) {i : Nat} (hi : i < pulseWaveLength ch.frequency) :
    pulsePattern ch i =
      if (highSteps ch.duty).1 ≤ 24 * i / (2048 - ch.frequency.toNat) ∧
          24 * i / (2048 - ch.frequency.toNat) ≤ (highSteps ch.duty).2 then
        ch.currentVolume.toNat
      else 0 := by
  have hhigh := dutyStepHigh_eq_highSteps ch.duty ⟨pulseStep ch.frequency i, pulseStep_lt_eight hi⟩
  simp only [pulsePattern, hhigh, decide_eq_true_eq]
  rfl

/-- The run of high steps in samples: a quotient's bounds are bounds by a quotient rounded up. -/
theorem step_between_iff {a b n i : Nat} (hn : 0 < n) :
    a ≤ 24 * i / n ∧ 24 * i / n ≤ b ↔ (a * n + 23) / 24 ≤ i ∧ i < ((b + 1) * n + 23) / 24 := by
  have hfirst : a ≤ 24 * i / n ↔ a * n ≤ 24 * i := Nat.le_div_iff_mul_le hn
  have hpast : 24 * i / n < b + 1 ↔ 24 * i < (b + 1) * n := Nat.div_lt_iff_lt_mul hn
  omega

theorem length_filter_range_between (L first past : Nat) :
    ((List.range L).filter fun i => decide (first ≤ i ∧ i < past)).length = min L past - min L first := by
  induction L with
  | zero => simp
  | succ L ih =>
    rw [List.range_succ, List.filter_append, List.length_append, ih]
    by_cases h : first ≤ L ∧ L < past
    · simp [h]; omega
    · simp [h]; omega

/-- Settles O34: the high samples are those of the duty's run of steps, an interval of the period. -/
theorem pulsePeriodHighSamples : Obligations.PulsePeriodHighSamples := by
  intro ch n L first past
  have hpattern : ∀ i < L, pulsePattern ch i = if first ≤ i ∧ i < past then ch.currentVolume.toNat else 0 := by
    intro i hi
    have hn : 0 < 2048 - ch.frequency.toNat := (periodBase_pos ch.frequency).1
    simp only [pulsePattern_eq ch hi, step_between_iff hn]
    rfl
  refine ⟨hpattern, fun hv => ?_⟩
  rw [← length_filter_range_between]
  congr 1
  refine List.filter_congr fun i hi => ?_
  rw [hpattern i (List.mem_range.1 hi), decide_eq_decide]
  have : ch.currentVolume.toNat ≠ 0 := fun h => hv (BitVec.eq_of_toNat_eq h)
  split_ifs with h <;> simp [h, this]

/-! ### The samples of a request -/

/-- The tiling and the ramp, with the ramp's index counted from the end of the request (R168, R169). -/
theorem tiledSample_eq (pattern : Nat → Nat) (L anchor N i : Nat) :
    tiledSample pattern L anchor N i =
      if i < samplesWritten L N then pattern (i % L) else (N - i) * anchor / (N - samplesWritten L N) := by
  unfold tiledSample
  split_ifs
  · rfl
  · rw [show N - samplesWritten L N - (i - samplesWritten L N) = N - i by omega]

theorem tiledSample_eq_pulseSample {ch : PulseChannel} (hL : 0 < pulseWaveLength ch.frequency) (N i : Nat) :
    tiledSample (pulsePattern ch) (pulseWaveLength ch.frequency) ch.currentVolume.toNat N i = pulseSample ch N i := by
  rw [tiledSample_eq, pulsePattern_eq ch (Nat.mod_lt i hL)]
  rfl

/-- Settles O31: the advanced channel is the rules' channel, and its samples are the rules' one by one. -/
theorem pulseTickFollowsItsRule : Obligations.PulseTickFollowsItsRule := by
  intro ch N hp hf
  have hL : pulseWaveLength ch.frequency ≠ 0 := by rw [Ne, pulseWaveLength_eq_zero]; omega
  rw [← advance_eq_pulseAfterTick hp, pulseTick, if_pos hp, if_neg hL, renderSamples, asSamples]
  simp only [← tiledSample_eq_pulseSample (ch := ch.advance) (Nat.pos_of_ne_zero hL)]
  rfl

end Sys2Proof.Proofs.PulseTick
end

section
/-! PROOF. Runs of TICKs: each channel ticks on its own, so its length counter and its envelope are functions of the
number of TICKs (R163, R164, R182). -/

namespace Sys2Proof.Proofs.TickRuns

open Sys2Proof.Machine Sys2Proof.Rules Sys2Proof.Proofs.Effects Sys2Proof.Proofs.PulseTick

/-- A run from an outcome goes on only from a next state. -/
theorem foldl_andThen_exec (commands : List Instr) (o : Host.Outcome State Fault Refusal) :
    commands.foldl (fun o i => andThen o (exec i)) o = andThen o (runAll commands) := by
  induction commands generalizing o with
  | nil => cases o <;> rfl
  | cons i rest ih =>
    have hrun (s : State) : runAll (i :: rest) s = andThen (exec i s) (runAll rest) := ih _
    rw [List.foldl_cons, ih]
    cases o <;> simp [hrun]

theorem runAll_cons_eq_next {i : Instr} {rest : List Instr} {s t : State} :
    runAll (i :: rest) s = .next t ↔ ∃ s', exec i s = .next s' ∧ runAll rest s' = .next t := by
  rw [← andThen_eq_next, ← foldl_andThen_exec]
  rfl

/-- Over `j` TICKs each channel is ticked `j` times. -/
theorem runAll_ticks_channels {j : Nat} {s t : State} (h : runAll (List.replicate j .tick) s = .next t) :
    t.p1 = PulseEffect.tick.apply^[j] s.p1 ∧ t.p2 = PulseEffect.tick.apply^[j] s.p2 ∧
      t.w = WaveEffect.tick.apply^[j] s.w := by
  induction j generalizing s with
  | zero => cases h; exact ⟨rfl, rfl, rfl⟩
  | succ j ih =>
    obtain ⟨s', hexec, hrun⟩ := runAll_cons_eq_next.1 h
    obtain ⟨hp1, hp2, hw⟩ := exec_channels hexec
    obtain ⟨ih1, ih2, ih3⟩ := ih hrun
    rw [ih1, ih2, ih3, hp1, hp2, hw]
    exact ⟨rfl, rfl, rfl⟩

/-! ### The length counter -/

/-- The fields of a channel of either kind that decide how long it plays. -/
structure LengthGate where
  enabled : Bool
  counter : Int
  playing : Bool

/-- Step 2 of a channel tick on those fields (R163, R182). -/
def LengthGate.tick (g : LengthGate) : LengthGate :=
  if g.playing then
    { g with counter := steppedCounter g.enabled g.counter, playing := steppedPlaying g.enabled g.counter g.playing }
  else g

/-- The gate of a pulse channel. -/
def pulseGate (ch : PulseChannel) : LengthGate := ⟨ch.lengthEnabled, ch.lengthCounter, ch.playing⟩

/-- The gate of the wave channel. -/
def waveGate (ch : WaveChannel) : LengthGate := ⟨ch.lengthEnabled, ch.lengthCounter, ch.playing⟩

theorem pulseGate_tick : Function.Semiconj pulseGate PulseEffect.tick.apply LengthGate.tick := by
  intro ch
  cases h : ch.playing <;> simp [PulseEffect.tick_apply, PulseChannel.advance, pulseGate, LengthGate.tick, h]

theorem waveGate_tick : Function.Semiconj waveGate WaveEffect.tick.apply LengthGate.tick := by
  intro ch
  cases h : ch.playing <;> simp [WaveEffect.tick_apply, WaveChannel.advance, waveGate, LengthGate.tick, h]

/-- A tick of a playing channel with length enabled. -/
theorem LengthGate.tick_of_playing (c : Int) : tick ⟨true, c, true⟩ = ⟨true, c - 4, decide (4 < c)⟩ := by
  simp [tick, steppedPlaying_eq, steppedCounter]

theorem LengthGate.iterate_tick_of_silent (e : Bool) (c : Int) (j : Nat) :
    tick^[j] ⟨e, c, false⟩ = ⟨e, c, false⟩ :=
  Function.iterate_fixed rfl j

/-- The first tick plays whatever the counter; another plays while the counter left is above 0. -/
theorem LengthGate.playing_iterate_tick {j : Nat} (hj : 1 ≤ j) (c : Int) :
    (tick^[j] ⟨true, c, true⟩).playing = true ↔ 4 * (j : Int) < c := by
  induction j, hj using Nat.le_induction generalizing c with
  | base => simp [tick_of_playing]
  | succ j hj ih =>
    rw [Function.iterate_succ_apply, tick_of_playing]
    by_cases h : 4 < c
    · rw [decide_eq_true h, ih]
      omega
    · rw [decide_eq_false h, iterate_tick_of_silent]
      exact iff_of_false Bool.false_ne_true (by omega)

/-- A channel seen through its gate: `ticked` is the channel after `j` ticks. -/
theorem playing_of_gate {g ticked : LengthGate} {j : Nat} (hj : 1 ≤ j) (hticked : ticked = LengthGate.tick^[j] g)
    (hp : g.playing = true) (he : g.enabled = true) : ticked.playing = true ↔ 4 * (j : Int) < g.counter := by
  obtain ⟨enabled, counter, playing⟩ := g
  subst hticked hp he
  exact LengthGate.playing_iterate_tick hj counter

/-- Settles O37: every channel's gate ticks by itself, `j` times. -/
theorem lengthCounterPlaysCeilQuarterTicks : Obligations.LengthCounterPlaysCeilQuarterTicks := by
  intro j s t hj h
  obtain ⟨hp1, hp2, hw⟩ := runAll_ticks_channels h
  rw [hp1, hp2, hw]
  exact ⟨playing_of_gate hj (pulseGate_tick.iterate_right j s.p1), playing_of_gate hj (pulseGate_tick.iterate_right j s.p2),
    playing_of_gate hj (waveGate_tick.iterate_right j s.w)⟩

/-! ### The envelope -/

theorem envelopeDue_succ_iff_dvd (period : BitVec 3) (ticks : Nat) :
    envelopeDue period (ticks + 1) = true ↔ period.toNat ∣ ticks + 1 := by
  rw [envelopeDue_iff, ← Nat.dvd_iff_mod_eq_zero, and_iff_right_iff_imp]
  rintro hdvd hzero
  rw [hzero, zero_dvd_iff] at hdvd
  exact absurd hdvd (Nat.succ_ne_zero ticks)

/-- Without length a channel's tick changes the count and the volume alone. -/
theorem advance_of_length_off {ch : PulseChannel} (he : ch.lengthEnabled = false) :
    ch.advance = { ch with
      ticks := ch.ticks + 1
      currentVolume := (envelopeStep ch.envelopeAdd)^[if ch.envelopePeriod.toNat ∣ ch.ticks + 1 then 1 else 0]
        ch.currentVolume } := by
  by_cases hdue : ch.envelopePeriod.toNat ∣ ch.ticks + 1 <;>
    simp [PulseChannel.advance, steppedCounter, steppedPlaying, he, envelopeDue_succ_iff_dvd, hdue]

/-- Without length a playing channel's envelope steps once for each multiple of the period its count meets. -/
theorem iterate_tick_of_length_off {ch : PulseChannel} (hp : ch.playing = true) (he : ch.lengthEnabled = false)
    (j : Nat) :
    PulseEffect.tick.apply^[j] ch = { ch with
      ticks := ch.ticks + j
      currentVolume := (envelopeStep ch.envelopeAdd)^[(ch.ticks + j) / ch.envelopePeriod.toNat -
        ch.ticks / ch.envelopePeriod.toNat] ch.currentVolume } := by
  induction j with
  | zero => simp
  | succ j ih =>
    have hmono : ch.ticks / ch.envelopePeriod.toNat ≤ (ch.ticks + j) / ch.envelopePeriod.toNat :=
      Nat.div_le_div_right (Nat.le_add_right _ _)
    rw [Function.iterate_succ_apply', ih, PulseEffect.tick_apply, if_pos hp, advance_of_length_off, ← Nat.add_assoc,
      Nat.succ_div, Nat.sub_add_comm hmono, Nat.add_comm _ (ite _ _ _), Function.iterate_add_apply]
    exact he

/-- The statement's `follows`: a period of 0 needs no case of its own, as no multiple of it is met. -/
theorem iterate_tick_currentVolume_toNat {ch : PulseChannel} (hp : ch.playing = true) (he : ch.lengthEnabled = false)
    (j : Nat) :
    (PulseEffect.tick.apply^[j] ch).currentVolume.toNat =
      if ch.envelopeAdd = true then
        min 15 (ch.currentVolume.toNat +
          3 * ((ch.ticks + j) / ch.envelopePeriod.toNat - ch.ticks / ch.envelopePeriod.toNat))
      else
        ch.currentVolume.toNat -
          3 * ((ch.ticks + j) / ch.envelopePeriod.toNat - ch.ticks / ch.envelopePeriod.toNat) := by
  rw [iterate_tick_of_length_off hp he, envelopeStep_iterate_toNat]

/-- Settles O38: the envelope's steps are iterates of one clamped step, which the closed form of R164 sums up. -/
theorem envelopeRampSaturates : Obligations.EnvelopeRampSaturates := by
  intro j s t h
  obtain ⟨hp1, hp2, -⟩ := runAll_ticks_channels h
  rw [hp1, hp2]
  exact ⟨fun hp he _ => iterate_tick_currentVolume_toNat hp he j, fun hp he _ => iterate_tick_currentVolume_toNat hp he j⟩

end Sys2Proof.Proofs.TickRuns
end

section
/-! PROOF. The wave channel's tick: the channel it leaves and the samples it defines (R181 to R189). -/

namespace Sys2Proof.Proofs.WaveTick

open Sys2Proof.Machine Sys2Proof.Rules Sys2Proof.Proofs.Effects Sys2Proof.Proofs.StepRange Sys2Proof.Proofs.PulseTick

/-! ### Silent channels -/

theorem waveTick_of_silent (params : Params) {ch : WaveChannel} (hp : ch.playing = false) (N : Nat) :
    waveTick params ch N = .ok none := by
  simp [waveTick, hp]

theorem waveEffect_tick_of_silent {ch : WaveChannel} (hp : ch.playing = false) : WaveEffect.tick.apply ch = ch := by
  simp [WaveEffect.tick_apply, hp]

/-- Settles O29: without an answer of the channel tick the mixer keeps the state, and TICK's effect keeps the channel. -/
theorem silentWaveChannelIsLeftAlone : Obligations.SilentWaveChannelIsLeftAlone := by
  refine ⟨fun params ch N hp => waveTick_of_silent params hp N, fun n s hp => ?_, fun s t h hp => ?_⟩
  · simp [tickW, waveTick_of_silent s.params hp]
  · obtain ⟨-, -, hw⟩ := exec_channels h
    exact hw.trans (waveEffect_tick_of_silent hp)

/-! ### The channel after a tick -/

/-- The channel of steps 1 and 2 is the rules' channel. -/
theorem advance_eq_waveAfterTick {ch : WaveChannel} (hp : ch.playing = true) : ch.advance = waveAfterTick ch := by
  rw [waveAfterTick, if_pos hp]
  simp only [WaveChannel.advance, hp, steppedCounter, steppedPlaying_eq]

/-! ### The samples of a period -/

/-- The divider as the rules' case split on the volume code (R184). -/
theorem dividedAmplitude_table (ch : WaveChannel) (e : BitVec 5) :
    dividedAmplitude ch.volumeCode (ch.table[e.toNat]'e.isLt).toNat = waveAmplitude ch e.toNat := by
  have hentry : ch.table.toList.getD e.toNat 0 = ch.table[e.toNat]'e.isLt := by simp [List.getD, e.isLt]
  have hcodes : ∀ code : BitVec 2, code = 0 ∨ code = 1 ∨ code = 2 ∨ code = 3 := by decide
  rw [waveAmplitude, hentry]
  rcases hcodes ch.volumeCode with h | h | h | h <;> rw [h] <;> rfl

theorem wavePattern_eq (params : Params) (ch : WaveChannel) (i : Nat) :
    wavePattern params ch i = waveAmplitude ch (waveEntry params ch.frequency i).toNat :=
  dividedAmplitude_table ch _

/-- With no listed points the entry inside a period is the exact one (R19, R92). -/
theorem waveEntry_toNat_of_exact {params : Params} (hexact : params.stepIndex = []) (ch : WaveChannel) {i : Nat}
    (hi : i < waveWaveLength ch.frequency) : (waveEntry params ch.frequency i).toNat = exactEntry ch i := by
  rw [waveEntry, hexact]
  exact exactWaveEntry_toNat hi

/-! ### The samples of a request -/

/-- The rules' samples need the entry indexes of one period only: the tiling reads the period at `i % L`, and the ramp's
anchor is its last sample (R186, R187). -/
theorem tiledSample_eq_waveSampleWith {params : Params} {ch : WaveChannel} {entry : Nat → Nat}
    (hL : 0 < waveWaveLength ch.frequency)
    (hentry : ∀ i < waveWaveLength ch.frequency, (waveEntry params ch.frequency i).toNat = entry i) (N i : Nat) :
    tiledSample (wavePattern params ch) (waveWaveLength ch.frequency)
      (wavePattern params ch (waveWaveLength ch.frequency - 1)) N i = waveSampleWith entry ch N i := by
  rw [tiledSample_eq, wavePattern_eq, wavePattern_eq, hentry _ (Nat.mod_lt i hL), hentry _ (Nat.sub_one_lt_of_lt hL)]
  rfl

/-- The answer of a tick that renders, whatever arithmetic gives the entry indexes inside a period as `entry`. -/
theorem waveTick_eq_waveSampleWith {params : Params} {ch : WaveChannel} {entry : Nat → Nat} (hp : ch.playing = true)
    (hf : ch.frequency.toNat ≤ 2046)
    (hentry : ∀ i < waveWaveLength ch.frequency, (waveEntry params ch.frequency i).toNat = entry i) (N : Nat) :
    waveTick params ch N = .ok (some (waveAfterTick ch, asSamples (waveSampleWith entry (waveAfterTick ch) N) N)) := by
  have hL : waveWaveLength ch.frequency ≠ 0 := by rw [Ne, waveWaveLength_eq_zero]; omega
  rw [← advance_eq_waveAfterTick hp, waveTick, if_pos hp, if_neg hL, renderSamples, asSamples]
  simp only [← tiledSample_eq_waveSampleWith (ch := ch.advance) (Nat.pos_of_ne_zero hL) hentry]
  rfl

/-- Settles O32: the advanced channel is the rules' channel, and its samples are the rules' one by one, at the exact
entry indexes. -/
theorem waveTickFollowsItsRule : Obligations.WaveTickFollowsItsRule := fun _ ch N hexact hp hf =>
  waveTick_eq_waveSampleWith hp hf (fun _ hi => waveEntry_toNat_of_exact hexact ch hi) N

end Sys2Proof.Proofs.WaveTick
end

section
/-! PROOF. One channel's part in the mixer: the samples it has to give and what they do to the buffers, said once for
the three channels (R203, R204, R211). -/

namespace Sys2Proof.Proofs.Voices

open Sys2Proof.Machine Sys2Proof.Proofs.Effects

/-! ### The answer of a channel tick -/

/-- What a channel tick for `n` samples can answer, where `ch'` is TICK's effect on the channel `ch`. -/
inductive Answer {α : Type} (ch ch' : α) (n : Nat) : Except Fault (Option (α × List Sample)) → Prop
  | fault (r : Fault) : Answer ch ch' n (.error r)
  | silent : ch' = ch → Answer ch ch' n (.ok none)
  | samples (x : List Sample) : x.length = n → Answer ch ch' n (.ok (some (ch', x)))

theorem pulseTick_answer (ch : PulseChannel) (n : Nat) : Answer ch (PulseEffect.tick.apply ch) n (pulseTick ch n) := by
  rw [PulseEffect.tick_apply]
  rcases pulseTick_cases ch n with ⟨hp, e⟩ | ⟨-, -, e⟩ | ⟨hp, -, x, hl, -, e⟩
  · rw [e, hp]; exact .silent rfl
  · rw [e]; exact .fault _
  · rw [e, hp]; exact .samples x hl

theorem waveTick_answer (params : Params) (ch : WaveChannel) (n : Nat) :
    Answer ch (WaveEffect.tick.apply ch) n (waveTick params ch n) := by
  rw [WaveEffect.tick_apply]
  rcases waveTick_cases params ch n with ⟨hp, e⟩ | ⟨-, -, e⟩ | ⟨hp, -, x, hl, -, e⟩
  · rw [e, hp]; exact .silent rfl
  · rw [e]; exact .fault _
  · rw [e, hp]; exact .samples x hl

/-- The samples an answer defines, without the channel. -/
def samplesOf {α : Type} (answer : Except Fault (Option (α × List Sample))) : Except Fault (Option (List Sample)) :=
  answer.map (Option.map Prod.snd)

/-! ### The mixer's call -/

/-- What a channel has to give to a request for `n` samples: the fault, nothing, or its samples. -/
def voice (n : Nat) (s : State) : Channel → Except Fault (Option (List Sample))
  | .p1 => samplesOf (pulseTick s.p1 n)
  | .p2 => samplesOf (pulseTick s.p2 n)
  | .w => samplesOf (waveTick s.params s.w n)

/-- The state with TICK's effect on one channel. -/
def advanceChannel (s : State) : Channel → State
  | .p1 => s.setP1 (PulseEffect.tick.apply s.p1)
  | .p2 => s.setP2 (PulseEffect.tick.apply s.p2)
  | .w => s.setW (WaveEffect.tick.apply s.w)

/-- The state with a channel's samples mixed in, if it gave any. -/
def mixVoice (n : Nat) (s : State) : Option (List Sample) → State
  | none => s
  | some samples => s.mixChannel n samples

/-- The mixer's call of a channel by the channel's name. -/
def tickChannel (n : Nat) (s : State) : Channel → Host.Outcome State Fault Refusal
  | .p1 => tickP1 n s
  | .p2 => tickP2 n s
  | .w => tickW n s

/-- What the mixer does with an answer: `set` puts a channel into the state `s`. -/
def takeAnswer {α : Type} (n : Nat) (s : State) (set : α → State) :
    Except Fault (Option (α × List Sample)) → Host.Outcome State Fault Refusal
  | .error r => .fault r
  | .ok none => .next s
  | .ok (some (ch, samples)) => .next ((set ch).mixChannel n samples)

/-- What the mixer does with a voice, the channel already advanced. -/
def takeVoice (n : Nat) (s : State) : Except Fault (Option (List Sample)) → Host.Outcome State Fault Refusal
  | .error r => .fault r
  | .ok v => .next (mixVoice n s v)

theorem takeAnswer_eq_takeVoice {α : Type} {ch ch' : α} {n : Nat} {answer : Except Fault (Option (α × List Sample))}
    (h : Answer ch ch' n answer) {s : State} {set : α → State} (hs : set ch = s) :
    takeAnswer n s set answer = takeVoice n (set ch') (samplesOf answer) := by
  cases h with
  | fault r => rfl
  | silent he => rw [he, hs]; rfl
  | samples x hl => rfl

theorem tickP1_eq_takeAnswer (n : Nat) (s : State) : tickP1 n s = takeAnswer n s s.setP1 (pulseTick s.p1 n) := by
  unfold tickP1
  rcases pulseTick s.p1 n with r | _ | answer <;> rfl

theorem tickP2_eq_takeAnswer (n : Nat) (s : State) : tickP2 n s = takeAnswer n s s.setP2 (pulseTick s.p2 n) := by
  unfold tickP2
  rcases pulseTick s.p2 n with r | _ | answer <;> rfl

theorem tickW_eq_takeAnswer (n : Nat) (s : State) : tickW n s = takeAnswer n s s.setW (waveTick s.params s.w n) := by
  unfold tickW
  rcases waveTick s.params s.w n with r | _ | answer <;> rfl

/-- The mixer's call advances the channel and takes its voice. -/
theorem tickChannel_eq (n : Nat) (s : State) (c : Channel) :
    tickChannel n s c = takeVoice n (advanceChannel s c) (voice n s c) := by
  cases c with
  | p1 => exact (tickP1_eq_takeAnswer n s).trans (takeAnswer_eq_takeVoice (pulseTick_answer s.p1 n) rfl)
  | p2 => exact (tickP2_eq_takeAnswer n s).trans (takeAnswer_eq_takeVoice (pulseTick_answer s.p2 n) rfl)
  | w => exact (tickW_eq_takeAnswer n s).trans (takeAnswer_eq_takeVoice (waveTick_answer s.params s.w n) rfl)

theorem tickChannel_of_error {n : Nat} {s : State} {c : Channel} {r : Fault} (h : voice n s c = .error r) :
    tickChannel n s c = .fault r := by
  rw [tickChannel_eq, h]; rfl

theorem tickChannel_of_ok {n : Nat} {s : State} {c : Channel} {v : Option (List Sample)} (h : voice n s c = .ok v) :
    tickChannel n s c = .next (mixVoice n (advanceChannel s c) v) := by
  rw [tickChannel_eq, h]; rfl

theorem Answer.length {α : Type} {ch ch' : α} {n : Nat} {answer : Except Fault (Option (α × List Sample))}
    (h : Answer ch ch' n answer) {v : Option (List Sample)} (hv : samplesOf answer = .ok v) :
    ∀ x ∈ v, x.length = n := by
  cases h with
  | fault r => cases hv
  | silent he => cases hv; simp
  | samples x hl => cases hv; simp [hl]

/-- A voice for `n` samples has exactly `n`. -/
theorem length_of_voice {n : Nat} {s : State} {c : Channel} {v : Option (List Sample)} (h : voice n s c = .ok v) :
    ∀ x ∈ v, x.length = n := by
  cases c with
  | p1 => exact (pulseTick_answer s.p1 n).length h
  | p2 => exact (pulseTick_answer s.p2 n).length h
  | w => exact (waveTick_answer s.params s.w n).length h

/-- Mixing in terms of the samples given alone: the free ones behind them are never read (R209). -/
theorem mixChannel_eq {n : Nat} {x : List Sample} (hl : x.length = n) (s : State) :
    s.mixChannel n x = { s with
      scr := x ++ freeSamples s.freeDraws n (s.params.frameSampleCount - n)
      mst := accumulate n s.mst x
      freeDraws := s.freeDraws + 1 } := by
  rw [State.mixChannel, accumulate_append n s.mst x _ hl]

/-! ### A channel's part leaves the other channels' voices alone -/

theorem voice_advanceChannel {c d : Channel} (h : d ≠ c) (n : Nat) (s : State) :
    voice n (advanceChannel s c) d = voice n s d := by
  cases c <;> cases d
  case p1.p1 | p2.p2 | w.w => exact absurd rfl h
  all_goals rfl

theorem voice_mixVoice (m n : Nat) (s : State) (v : Option (List Sample)) (c : Channel) :
    voice n (mixVoice m s v) c = voice n s c := by
  cases v <;> cases c <;> rfl

theorem advanceChannel_mixVoice (n : Nat) (s : State) (v : Option (List Sample)) (c : Channel) :
    advanceChannel (mixVoice n s v) c = mixVoice n (advanceChannel s c) v := by
  cases v <;> cases c <;> rfl

theorem advanceChannel_comm (s : State) (c d : Channel) :
    advanceChannel (advanceChannel s c) d = advanceChannel (advanceChannel s d) c := by
  cases c <;> cases d <;> rfl

end Sys2Proof.Proofs.Voices
end

section
/-! PROOF. What the buffers hold and how many free values were drawn reaches nothing but the buffers (R209, R51, R52). -/

namespace Sys2Proof.Proofs.Unobservable

open Sys2Proof.Machine Sys2Proof.Rules Sys2Proof.Proofs.Effects Sys2Proof.Proofs.Voices

/-! ### Outcomes in relation -/

theorem outcomesAgree_mono {rel rel' : State → State → Prop} {a b : Host.Outcome State Fault Refusal}
    (h : outcomesAgree rel a b) (himp : ∀ s t, rel s t → rel' s t) : outcomesAgree rel' a b := by
  cases a <;> cases b
  case next.next s t => exact himp s t h
  all_goals exact h

theorem outcomesAgree_andThen {rel rel' : State → State → Prop} {a b : Host.Outcome State Fault Refusal}
    {k l : State → Host.Outcome State Fault Refusal} (h : outcomesAgree rel a b)
    (hk : ∀ s t, rel s t → outcomesAgree rel' (k s) (l t)) : outcomesAgree rel' (andThen a k) (andThen b l) := by
  cases a <;> cases b
  case next.next s t => exact hk s t h
  case fault.fault | refused.refused => exact h
  all_goals exact h.elim

/-- Where one of two outcomes in relation answers next, so does the other. -/
theorem next_of_outcomesAgree {rel : State → State → Prop} {s : State} {b : Host.Outcome State Fault Refusal}
    (h : outcomesAgree rel (.next s) b) : ∃ t, b = .next t ∧ rel s t := by
  cases b with
  | next t => exact ⟨t, rfl, h⟩
  | fault r => exact h.elim
  | refused r => exact h.elim

/-! ### The relations of a run and of a mixer tick -/

/-- The second state is the first with other buffers and, unless `counted`, with another draw counter. -/
inductive SameRun (counted : Prop) (s : State) : State → Prop
  | intro (mst scr : Buffer) (draws : Nat) : (counted → s.freeDraws = draws) →
      SameRun counted s { s with mst := mst, scr := scr, freeDraws := draws }

/-- From the zeroing of the master buffer to the write of the block (R202, R205) that buffer is the same as well. -/
inductive SameMix (counted : Prop) (s : State) : State → Prop
  | intro (scr : Buffer) (draws : Nat) : (counted → s.freeDraws = draws) →
      SameMix counted s { s with scr := scr, freeDraws := draws }

section
variable {counted : Prop} {s t : State}

theorem SameRun.sameObservables (h : SameRun counted s t) : sameObservables s t := by
  cases h
  exact ⟨rfl, rfl, rfl, rfl, rfl, rfl, rfl, rfl⟩

theorem SameRun.setPort (h : SameRun counted s t) (port : List CommandWord) :
    SameRun counted { s with port := port } { t with port := port } := by
  obtain ⟨mst, scr, draws, hd⟩ := h
  exact .intro mst scr draws hd

theorem SameRun.zeroMaster (h : SameRun counted s t) : SameMix counted s.zeroMaster t.zeroMaster := by
  obtain ⟨mst, scr, draws, hd⟩ := h
  exact .intro scr draws hd

/-- The answer taken from the sink is a listed one or a free value, in both states (log entry 4). -/
theorem SameRun.consumeAnswer (h : SameRun counted s t) : SameRun counted s.consumeAnswer t.consumeAnswer := by
  obtain ⟨mst, scr, draws, hd⟩ := h
  unfold State.consumeAnswer
  cases s.sink.answers with
  | nil => exact .intro mst scr (draws + 1) fun hc => congrArg (· + 1) (hd hc)
  | cons answer rest => exact .intro mst scr draws hd

/-- Where no answer is listed the answer is drawn, so there the counters have to agree. -/
theorem SameRun.sinkCapacity (h : SameRun counted s t) (hc : s.sink.answers = [] → counted) :
    sinkCapacity s = sinkCapacity t := by
  obtain ⟨mst, scr, draws, hd⟩ := h
  unfold Machine.sinkCapacity
  cases ha : s.sink.answers with
  | nil => exact congrArg (fun d => some (Config.freeCapacity d)) (hd (hc ha))
  | cons answer rest => cases answer <;> rfl

theorem SameRun.resetChannels (h : SameRun counted s t) : SameRun counted s.resetChannels t.resetChannels := by
  obtain ⟨mst, scr, draws, hd⟩ := h
  exact .intro _ _ (draws + 2) fun hc => congrArg (· + 2) (hd hc)

theorem SameRun.applyEffects (h : SameRun counted s t) (i : Instr) :
    SameRun counted (applyEffects i s) (applyEffects i t) := by
  obtain ⟨mst, scr, draws, hd⟩ := h
  exact .intro mst scr draws hd

theorem SameRun.respond (h : SameRun counted s t) (r : Response) : SameRun counted (s.respond r) (t.respond r) := by
  obtain ⟨mst, scr, draws, hd⟩ := h
  exact .intro mst scr draws hd

theorem SameMix.advanceChannel (h : SameMix counted s t) (c : Channel) :
    SameMix counted (advanceChannel s c) (advanceChannel t c) := by
  obtain ⟨scr, draws, hd⟩ := h
  cases c <;> exact .intro scr draws hd

/-- Mixing reads the samples given and none of the free ones behind them. -/
theorem SameMix.mixVoice (h : SameMix counted s t) {n : Nat} {v : Option (List Sample)}
    (hv : ∀ x ∈ v, x.length = n) : SameMix counted (mixVoice n s v) (mixVoice n t v) := by
  obtain ⟨scr, draws, hd⟩ := h
  cases v with
  | none => exact .intro scr draws hd
  | some x =>
    simp only [Voices.mixVoice, mixChannel_eq (hv x rfl)]
    exact .intro _ (draws + 1) fun hc => congrArg (· + 1) (hd hc)

theorem SameMix.voice (h : SameMix counted s t) (n : Nat) (c : Channel) : voice n s c = voice n t c := by
  cases h
  cases c <;> rfl

/-- The write hands out the same block, since the master buffer is the same. -/
theorem SameMix.sinkWrite (h : SameMix counted s t) (n : Nat) : SameRun counted (s.sinkWrite n) (t.sinkWrite n) := by
  obtain ⟨scr, draws, hd⟩ := h
  exact .intro s.mst scr draws hd

/-! ### Every command and every step keeps the relation -/

theorem tickChannel_sameMix (h : SameMix counted s t) (n : Nat) (c : Channel) :
    outcomesAgree (SameMix counted) (tickChannel n s c) (tickChannel n t c) := by
  cases hv : voice n s c with
  | error r =>
    rw [tickChannel_of_error hv, tickChannel_of_error ((h.voice n c).symm.trans hv)]
    rfl
  | ok v =>
    rw [tickChannel_of_ok hv, tickChannel_of_ok ((h.voice n c).symm.trans hv)]
    exact (h.advanceChannel c).mixVoice (length_of_voice hv)

theorem mixerTick_sameRun (h : SameRun counted s t) (n : Nat) :
    outcomesAgree (SameRun counted) (mixerTick n s) (mixerTick n t) :=
  outcomesAgree_andThen (tickChannel_sameMix h.zeroMaster n .p1) fun _ _ h1 =>
    outcomesAgree_andThen (tickChannel_sameMix h1 n .p2) fun _ _ h2 =>
      outcomesAgree_andThen (tickChannel_sameMix h2 n .w) fun _ _ h3 => (h3.sinkWrite n).respond .ok

theorem execTick_sameRun (h : SameRun counted s t) (hc : s.sink.answers = [] → counted) :
    outcomesAgree (SameRun counted) (execTick s) (execTick t) := by
  have hcap := h.sinkCapacity hc
  obtain ⟨-, -, -, -, -, hparams, hsink, -⟩ := h.sameObservables
  unfold execTick
  rw [← hcap, ← hparams, ← hsink]
  cases s.sink.isOpen with
  | false => rfl
  | true =>
    cases Machine.sinkCapacity s with
    | none => rfl
    | some cap => exact mixerTick_sameRun h.consumeAnswer _

theorem exec_sameRun (i : Instr) (h : SameRun counted s t) (hc : s.sink.answers = [] → counted) :
    outcomesAgree (SameRun counted) (exec i s) (exec i t) := by
  by_cases ht : i = .tick
  · subst ht; exact execTick_sameRun h hc
  · by_cases hr : i = .reset
    · subst hr; exact h.resetChannels.respond .ok
    · rw [exec_eq_applyEffects ht hr, exec_eq_applyEffects ht hr]
      exact (h.applyEffects i).respond _

theorem step_sameRun (h : SameRun True s t) : outcomesAgree (SameRun True) (step s) (step t) := by
  obtain ⟨-, -, -, -, -, -, -, hport⟩ := h.sameObservables
  cases hp : s.port with
  | nil => rw [step_of_no_command hp, step_of_no_command (hport.symm.trans hp)]; exact h
  | cons word rest =>
    rw [step_of_port hp, step_of_port (hport.symm.trans hp)]
    cases decode word with
    | none => rfl
    | some i => exact exec_sameRun i (h.setPort rest) fun _ => trivial

theorem run_sameRun (k : Nat) (h : SameRun True s t) :
    outcomesAgree (SameRun True) (Sys2Proof.core.run k s) (Sys2Proof.core.run k t) := by
  induction k generalizing s t with
  | zero => exact h
  | succ k ih =>
    rw [core_run_succ, core_run_succ]
    exact outcomesAgree_andThen (step_sameRun h) fun _ _ h' => ih h'

end

/-! ### The statements -/

/-- Settles O47: every command keeps the relation of two states that differ in the buffers and the counter; the counter
is read only for an answer that no list gives. -/
theorem buffersAndFreeValuesAreUnobservable : Obligations.BuffersAndFreeValuesAreUnobservable := by
  intro i s mst scr draws hdraws
  have hsame : SameRun (s.sink.answers = []) s { s with mst := mst, scr := scr, freeDraws := draws } :=
    .intro mst scr draws fun hnil => (hdraws.resolve_right (not_not_intro hnil)).symm
  exact outcomesAgree_mono (exec_sameRun i hsame id) fun _ _ h => h.sameObservables

/-- Settles O48: every step keeps the relation with the counters equal, so a run of any length does. -/
theorem runsNeverObserveTheInitialBuffers : Obligations.RunsNeverObserveTheInitialBuffers := fun k s mst scr =>
  outcomesAgree_mono (run_sameRun k (.intro mst scr s.freeDraws fun _ => rfl)) fun _ _ h => h.sameObservables

end Sys2Proof.Proofs.Unobservable
end

section
/-! PROOF. The three channels in the mixer: their order, their faults and what they leave in the buffers (R203, R204,
R206, R211). -/

namespace Sys2Proof.Proofs.Mixer

open Sys2Proof.Machine Sys2Proof.Rules Sys2Proof.Proofs.PulseTick Sys2Proof.Proofs.Voices

/-! ### The order of two channels -/

/-- A channel's call leaves the voice of another as it was. -/
theorem voice_of_other {c d : Channel} (h : d ≠ c) (n : Nat) (s : State) (v : Option (List Sample)) :
    voice n (mixVoice n (advanceChannel s c) v) d = voice n s d := by
  rw [voice_mixVoice, voice_advanceChannel h]

/-- Two voices mixed in either order differ only in what stays in the scratch buffer. -/
theorem mixVoice_comm {n : Nat} {v u : Option (List Sample)} (hv : ∀ x ∈ v, x.length = n) (hu : ∀ x ∈ u, x.length = n)
    (s : State) :
    sameObservables (mixVoice n (mixVoice n s v) u) (mixVoice n (mixVoice n s u) v) ∧
      (mixVoice n (mixVoice n s v) u).mst = (mixVoice n (mixVoice n s u) v).mst ∧
      (mixVoice n (mixVoice n s v) u).freeDraws = (mixVoice n (mixVoice n s u) v).freeDraws := by
  refine ⟨?_, ?_, ?_⟩
  · cases v <;> cases u <;> exact ⟨rfl, rfl, rfl, rfl, rfl, rfl, rfl, rfl⟩
  · cases v with
    | none => cases u <;> rfl
    | some x =>
      cases u with
      | none => rfl
      | some y =>
        simp only [mixVoice, mixChannel_eq (hv x rfl), mixChannel_eq (hu y rfl)]
        exact accumulate_comm n s.mst x y
  · cases v <;> cases u <;> rfl

/-- Two channels ticked in either order: a fault of either is the fault of both orders, and without one both advance and
both voices are mixed in. -/
theorem tickChannel_comm {c d : Channel} (h : d ≠ c) (n : Nat) (s : State) :
    outcomesAgree (fun t u => sameObservables t u ∧ t.mst = u.mst ∧ t.freeDraws = u.freeDraws)
      (andThen (tickChannel n s c) (tickChannel n · d)) (andThen (tickChannel n s d) (tickChannel n · c)) := by
  have hd (v) : voice n (mixVoice n (advanceChannel s c) v) d = voice n s d := voice_of_other h n s v
  have hc (u) : voice n (mixVoice n (advanceChannel s d) u) c = voice n s c := voice_of_other h.symm n s u
  cases hv : voice n s c with
  | error r =>
    rw [tickChannel_of_error hv]
    cases hu : voice n s d with
    | error r' => rw [tickChannel_of_error hu]; cases r; cases r'; rfl
    | ok u => rw [tickChannel_of_ok hu, andThen_next, tickChannel_of_error ((hc u).trans hv)]; rfl
  | ok v =>
    rw [tickChannel_of_ok hv, andThen_next]
    cases hu : voice n s d with
    | error r => rw [tickChannel_of_error hu, tickChannel_of_error ((hd v).trans hu)]; rfl
    | ok u =>
      rw [tickChannel_of_ok hu, andThen_next, tickChannel_of_ok ((hd v).trans hu), tickChannel_of_ok ((hc u).trans hv),
        advanceChannel_mixVoice, advanceChannel_mixVoice, advanceChannel_comm s c d]
      exact mixVoice_comm (length_of_voice hv) (length_of_voice hu) _

/-- Settles O46: the two channels of each pair have a voice of their own, and accumulations commute. -/
theorem channelOrderIsUnobservable : Obligations.ChannelOrderIsUnobservable := fun n s =>
  ⟨tickChannel_comm (c := .p1) (d := .p2) (by decide) n s, tickChannel_comm (c := .p1) (d := .w) (by decide) n s,
    tickChannel_comm (c := .p2) (d := .w) (by decide) n s⟩

/-! ### The mixer tick by the three voices -/

/-- All three channels advanced. -/
def advanceAll (s : State) : State := advanceChannel (advanceChannel (advanceChannel s .p1) .p2) .w

/-- The three voices mixed in, in the order of D2. -/
def mixVoices (n : Nat) (s : State) (v : Channel → Option (List Sample)) : State :=
  mixVoice n (mixVoice n (mixVoice n s (v .p1)) (v .p2)) (v .w)

theorem mixerTick_eq (n : Nat) (s : State) :
    mixerTick n s = andThen (tickChannel n s.zeroMaster .p1) fun s1 =>
      andThen (tickChannel n s1 .p2) fun s2 =>
        andThen (tickChannel n s2 .w) fun s3 => .next ((s3.sinkWrite n).respond .ok) := rfl

theorem voice_zeroMaster (n : Nat) (s : State) (c : Channel) : voice n s.zeroMaster c = voice n s c := by
  cases c <;> rfl

theorem voice_consumeAnswer (n : Nat) (s : State) (c : Channel) : voice n s.consumeAnswer c = voice n s c := by
  cases c <;> simp [voice]

theorem andThen_tickChannel_of_ok {n : Nat} {s : State} {c : Channel} {v : Option (List Sample)}
    (h : voice n s c = .ok v) (k : State → Host.Outcome State Fault Refusal) :
    andThen (tickChannel n s c) k = k (mixVoice n (advanceChannel s c) v) := by
  rw [tickChannel_of_ok h, andThen_next]

/-- Without a fault every channel advances, every voice is mixed in and the block is written. -/
theorem mixerTick_of_ok {n : Nat} {s : State} {v : Channel → Option (List Sample)}
    (h : ∀ c, voice n s c = .ok (v c)) :
    mixerTick n s = .next (((mixVoices n (advanceAll s.zeroMaster) v).sinkWrite n).respond .ok) := by
  have h0 (c) : voice n s.zeroMaster c = .ok (v c) := (voice_zeroMaster n s c).trans (h c)
  have h1 {c} (hc : c ≠ .p1) : voice n (mixVoice n (advanceChannel s.zeroMaster .p1) (v .p1)) c = .ok (v c) :=
    (voice_of_other hc n _ _).trans (h0 c)
  rw [mixerTick_eq, andThen_tickChannel_of_ok (h0 .p1), andThen_tickChannel_of_ok (h1 (c := .p2) (by decide)),
    andThen_tickChannel_of_ok ((voice_of_other (by decide) n _ _).trans (h1 (c := .w) (by decide))),
    advanceChannel_mixVoice, advanceChannel_mixVoice, advanceChannel_mixVoice]
  rfl

/-- A fault behind a channel's call stops the mixer: the call itself faults, or it leaves the faulting voice alone. -/
theorem andThen_tickChannel_eq_fault {n : Nat} {s : State} {c d : Channel} (h : d ≠ c)
    {k : State → Host.Outcome State Fault Refusal}
    (hk : ∀ t, voice n t d = voice n s d → k t = .fault .zeroWaveLength) :
    andThen (tickChannel n s c) k = .fault .zeroWaveLength := by
  cases hv : voice n s c with
  | error r => rw [tickChannel_of_error hv]; cases r; rfl
  | ok v => rw [tickChannel_of_ok hv]; exact hk _ (voice_of_other h n s v)

theorem mixerTick_of_error {n : Nat} {s : State} {c : Channel} (h : voice n s c = .error .zeroWaveLength) :
    mixerTick n s = .fault .zeroWaveLength := by
  have stop {t : State} (k : State → Host.Outcome State Fault Refusal)
      (ht : voice n t c = voice n s c) : andThen (tickChannel n t c) k = .fault .zeroWaveLength := by
    rw [tickChannel_of_error (ht.trans h)]; rfl
  cases c with
  | p1 => exact stop (t := s.zeroMaster) _ rfl
  | p2 => exact andThen_tickChannel_eq_fault (c := .p1) (d := .p2) (by decide) fun _ h1 => stop _ h1
  | w =>
    exact andThen_tickChannel_eq_fault (c := .p1) (d := .w) (by decide) fun _ h1 =>
      andThen_tickChannel_eq_fault (c := .p2) (d := .w) (by decide) fun _ h2 => stop _ (h2.trans h1)

/-- The mixer tick faults exactly when a channel's voice is the fault (R211). -/
theorem mixerTick_eq_fault {n : Nat} {s : State} :
    mixerTick n s = .fault .zeroWaveLength ↔ ∃ c, voice n s c = .error .zeroWaveLength := by
  refine ⟨fun h => ?_, fun ⟨c, hc⟩ => mixerTick_of_error hc⟩
  by_contra hno
  have hok : ∀ c, ∃ v, voice n s c = .ok v := by
    intro c
    cases hc : voice n s c with
    | error r => cases r; exact absurd ⟨c, hc⟩ hno
    | ok v => exact ⟨v, rfl⟩
  choose v hv using hok
  rw [mixerTick_of_ok hv] at h
  cases h

/-! ### When TICK faults -/

theorem execTick_eq_fault {s : State} {r : Fault} :
    execTick s = .fault r ↔ s.sink.isOpen = true ∧ ∃ cap, sinkCapacity s = some cap ∧
      mixerTick (min cap s.params.frameSampleCount) s.consumeAnswer = .fault r := by
  unfold execTick
  cases s.sink.isOpen <;> cases sinkCapacity s <;> simp

@[simp] theorem samplesOf_eq_error {α : Type} {answer : Except Fault (Option (α × List Sample))} {r : Fault} :
    samplesOf answer = .error r ↔ answer = .error r := by
  cases answer <;> simp [samplesOf, Except.map]

/-- Some channel's voice is the fault exactly when that channel is playing with `waveLength` 0 (R172, R190). -/
theorem exists_voice_eq_fault {n : Nat} {s : State} :
    (∃ c, voice n s c = .error .zeroWaveLength) ↔
      (s.p1.playing = true ∧ 2046 ≤ s.p1.frequency.toNat) ∨ (s.p2.playing = true ∧ 2046 ≤ s.p2.frequency.toNat) ∨
        (s.w.playing = true ∧ s.w.frequency.toNat = 2047) := by
  obtain ⟨hpulse, hwave⟩ := channelTicksFaultOnZeroWaveLength
  rw [← hpulse s.p1 n, ← hpulse s.p2 n, ← hwave s.params s.w n]
  constructor
  · rintro ⟨_ | _, h⟩
    · exact .inl (samplesOf_eq_error.1 h)
    · exact .inr (.inl (samplesOf_eq_error.1 h))
    · exact .inr (.inr (samplesOf_eq_error.1 h))
  · rintro (h | h | h)
    · exact ⟨.p1, samplesOf_eq_error.2 h⟩
    · exact ⟨.p2, samplesOf_eq_error.2 h⟩
    · exact ⟨.w, samplesOf_eq_error.2 h⟩

/-- Settles O40: the mixer tick faults exactly when a voice is the fault, and no voice's fault depends on the capacity. -/
theorem tickFaultsExactlyOnZeroWaveLength : Obligations.TickFaultsExactlyOnZeroWaveLength := by
  intro s
  have hexec : exec .tick s = execTick s := rfl
  simp only [hexec, execTick_eq_fault, mixerTick_eq_fault, voice_consumeAnswer, exists_voice_eq_fault,
    exists_and_right]

end Sys2Proof.Proofs.Mixer
end

section
/-! PROOF. TICK whole: the closed form of its block, its bounds, and what it leaves alone (R201 to R210). -/

namespace Sys2Proof.Proofs.TickBlock

open Sys2Proof.Machine Sys2Proof.Rules Sys2Proof.Proofs.Effects Sys2Proof.Proofs.PulseTick Sys2Proof.Proofs.WaveTick
open Sys2Proof.Proofs.Voices Sys2Proof.Proofs.Mixer Sys2Proof.Proofs.Unobservable Sys2Proof.Proofs.Invariant

/-! ### TICK's effect is the rules' channel -/

theorem tick_apply_eq_pulseAfterTick (ch : PulseChannel) : PulseEffect.tick.apply ch = pulseAfterTick ch := by
  cases hp : ch.playing with
  | true => rw [← advance_eq_pulseAfterTick hp, PulseEffect.tick_apply, if_pos hp]
  | false => rw [tick_apply_of_silent hp, pulseAfterTick, if_neg (by simp [hp])]

theorem tick_apply_eq_waveAfterTick (ch : WaveChannel) : WaveEffect.tick.apply ch = waveAfterTick ch := by
  cases hp : ch.playing with
  | true => rw [← advance_eq_waveAfterTick hp, WaveEffect.tick_apply, if_pos hp]
  | false => rw [waveEffect_tick_of_silent hp, waveAfterTick, if_neg (by simp [hp])]

/-! ### The voices by the rules -/

/-- The entry the model finds for a point is the first the rules list for it (R11, U7), else the exact one. -/
theorem waveEntry_toNat (params : Params) (ch : WaveChannel) {i : Nat} (hi : i < waveWaveLength ch.frequency) :
    (waveEntry params ch.frequency i).toNat = instanceEntry params ch i := by
  have hfind : (params.stepIndex.find? fun point => point.1 == ch.frequency && point.2.1 == i) =
      (params.stepIndex.filter fun point => decide (point.1 = ch.frequency ∧ point.2.1 = i)).head? := by
    rw [List.head?_filter]
    congr 1
    funext point
    simp [Bool.beq_eq_decide_eq]
  unfold waveEntry instanceEntry
  rw [hfind]
  cases params.stepIndex.filter fun point => decide (point.1 = ch.frequency ∧ point.2.1 = i) with
  | nil => exact StepRange.exactWaveEntry_toNat hi
  | cons point rest => rfl

/-- Whether a channel plays. -/
def plays (s : State) : Channel → Bool
  | .p1 => s.p1.playing
  | .p2 => s.p2.playing
  | .w => s.w.playing

/-- Sample `i` of a playing channel in a TICK for `n` samples, by the rules. -/
def ruleSample (s : State) (n : Nat) : Channel → Nat → Nat
  | .p1 => pulseSample (pulseAfterTick s.p1) n
  | .p2 => pulseSample (pulseAfterTick s.p2) n
  | .w => waveSampleWith (instanceEntry s.params s.w) (waveAfterTick s.w) n

/-- The samples of a channel that plays, and none of one that does not. -/
def heard (playing : Bool) (sample : Nat → Nat) (n : Nat) : Option (List Sample) :=
  if playing = true then some (asSamples sample n) else none

theorem samplesOf_pulseTick {ch : PulseChannel} (h : ch.renders) (n : Nat) :
    samplesOf (pulseTick ch n) = .ok (heard ch.playing (pulseSample (pulseAfterTick ch) n) n) := by
  cases hp : ch.playing with
  | true => rw [pulseTickFollowsItsRule ch n hp (h hp)]; rfl
  | false => rw [pulseTick_of_silent hp]; rfl

theorem samplesOf_waveTick {ch : WaveChannel} (params : Params) (h : ch.renders) (n : Nat) :
    samplesOf (waveTick params ch n) =
      .ok (heard ch.playing (waveSampleWith (instanceEntry params ch) (waveAfterTick ch) n) n) := by
  cases hp : ch.playing with
  | true => rw [waveTick_eq_waveSampleWith hp (h hp) (fun i hi => waveEntry_toNat params ch hi)]; rfl
  | false => rw [waveTick_of_silent params hp]; rfl

theorem voice_of_renders {s : State} (h : s.renders) (n : Nat) (c : Channel) :
    voice n s c = .ok (heard (plays s c) (ruleSample s n c) n) := by
  obtain ⟨h1, h2, hw⟩ := h
  cases c with
  | p1 => exact samplesOf_pulseTick h1 n
  | p2 => exact samplesOf_pulseTick h2 n
  | w => exact samplesOf_waveTick s.params hw n

/-! ### The bound of the rules' samples -/

/-- The rules' ramp never exceeds its anchor. -/
theorem ruleRamp_le {written i : Nat} (h : ¬ i < written) (N anchor : Nat) :
    (N - i) * anchor / (N - written) ≤ anchor := by
  have hramp := ramp_le (N - written) (i - written) anchor
  rwa [show N - written - (i - written) = N - i by omega] at hramp

theorem pulseSample_le (ch : PulseChannel) (N i : Nat) : pulseSample ch N i ≤ 15 := by
  have hv := ch.currentVolume.isLt
  unfold pulseSample
  dsimp only
  split_ifs with hi
  · omega
  · omega
  · exact (ruleRamp_le hi N _).trans (by omega)

theorem waveAmplitude_le (ch : WaveChannel) (e : Nat) : waveAmplitude ch e ≤ 15 := by
  have hv := (ch.table.toList.getD e 0).isLt
  unfold waveAmplitude
  split <;> omega

theorem waveSampleWith_le (entry : Nat → Nat) (ch : WaveChannel) (N i : Nat) : waveSampleWith entry ch N i ≤ 15 := by
  unfold waveSampleWith
  dsimp only
  split_ifs with hi
  · exact waveAmplitude_le ch _
  · exact (ruleRamp_le hi N _).trans (waveAmplitude_le ch _)

theorem ruleSample_le (s : State) (n : Nat) (c : Channel) (i : Nat) : ruleSample s n c i ≤ 15 := by
  cases c with
  | p1 => exact pulseSample_le _ n i
  | p2 => exact pulseSample_le _ n i
  | w => exact waveSampleWith_le _ _ n i

/-! ### The buffers after the three voices -/

@[simp] theorem asSamples_length (f : Nat → Nat) (n : Nat) : (asSamples f n).length = n := by simp [asSamples]

theorem mixedBlock_length (s : State) (n : Nat) : (mixedBlock s n).length = n := asSamples_length _ n

theorem asSamples_zero (n : Nat) : asSamples (fun _ => 0) n = List.replicate n 0 := by simp [asSamples]

/-- Samples below 16 are their own numbers, so a quarter of each is added as a number. -/
theorem accumulate_asSamples (n : Nat) {g : Nat → Nat} (hg : ∀ i, g i ≤ 15) (f : Nat → Nat) (rest : List Sample) :
    accumulate n (asSamples f n ++ rest) (asSamples g n) = asSamples (fun i => f i + g i / 4) n ++ rest := by
  apply List.ext_getElem?
  intro i
  rw [accumulate_getElem? n _ _ (by simp)]
  by_cases hi : i < n
  · have hleft (h : Nat → Nat) : (asSamples h n ++ rest)[i]? = some (BitVec.ofNat 8 (h i)) := by
      simp [asSamples, List.getElem?_append_left, hi]
    have hquarter : ((asSamples g n).getD i 0).toNat = g i := by
      have := hg i
      simp [asSamples, List.getD, hi]
      omega
    rw [hleft, hleft, Option.map_some, if_pos hi, hquarter]
    congr 1
    apply BitVec.eq_of_toNat_eq
    simp only [BitVec.toNat_ofNat, Nat.mod_add_mod]
  · have hright (h : Nat → Nat) : (asSamples h n ++ rest)[i]? = rest[i - n]? := by
      rw [List.getElem?_append_right (by simpa using hi), asSamples_length]
    rw [hright, hright]
    simp [hi]

theorem mixVoice_mst {n : Nat} {s : State} {f g : Nat → Nat} {rest : List Sample} (hs : s.mst = asSamples f n ++ rest)
    (hg : ∀ i, g i ≤ 15) (playing : Bool) :
    (mixVoice n s (heard playing g n)).mst =
      asSamples (fun i => f i + if playing = true then g i / 4 else 0) n ++ rest := by
  cases playing with
  | false => exact hs
  | true =>
    rw [heard, if_pos rfl, mixVoice, mixChannel_eq (asSamples_length g n), hs]
    exact accumulate_asSamples n hg f rest

/-- The three voices by the rules. -/
def ruleVoices (s : State) (n : Nat) (c : Channel) : Option (List Sample) := heard (plays s c) (ruleSample s n c) n

theorem ruleVoices_of_plays {s : State} {c : Channel} (h : plays s c = true) (n : Nat) :
    ruleVoices s n c = some (asSamples (ruleSample s n c) n) := by
  rw [ruleVoices, h]; rfl

theorem ruleVoices_of_silent {s : State} {c : Channel} (h : plays s c = false) (n : Nat) :
    ruleVoices s n c = none := by
  rw [ruleVoices, h]; rfl

/-- The zeroed master buffer takes the three channels' quarters one after the other: the sum of R206. -/
theorem mixVoices_mst {s b : State} {n : Nat} {rest : List Sample}
    (hb : b.mst = asSamples (fun _ => 0) n ++ rest) :
    (mixVoices n b (ruleVoices s n)).mst = mixedBlock s n ++ rest := by
  have h1 := mixVoice_mst hb (ruleSample_le s n .p1) (plays s .p1)
  have h2 := mixVoice_mst h1 (ruleSample_le s n .p2) (plays s .p2)
  have h3 := mixVoice_mst h2 (ruleSample_le s n .w) (plays s .w)
  simp only [Nat.zero_add] at h3
  exact h3

/-- A voice stands at the front of the scratch buffer. -/
theorem mixVoice_scr_take (n : Nat) (b : State) (g : Nat → Nat) :
    (mixVoice n b (some (asSamples g n))).scr.take n = asSamples g n :=
  List.take_left' (asSamples_length g n)

/-- The scratch buffer keeps the last voice mixed in (log entry 15). -/
theorem mixVoices_scr (s b : State) (n : Nat) :
    (s.w.playing = true → (mixVoices n b (ruleVoices s n)).scr.take n = asSamples (ruleSample s n .w) n) ∧
    (s.w.playing = false → s.p2.playing = true →
      (mixVoices n b (ruleVoices s n)).scr.take n = asSamples (ruleSample s n .p2) n) ∧
    (s.w.playing = false → s.p2.playing = false → s.p1.playing = true →
      (mixVoices n b (ruleVoices s n)).scr.take n = asSamples (ruleSample s n .p1) n) ∧
    (s.w.playing = false → s.p2.playing = false → s.p1.playing = false →
      (mixVoices n b (ruleVoices s n)).scr = b.scr) := by
  unfold mixVoices
  refine ⟨fun hw => ?_, fun hw h2 => ?_, fun hw h2 h1 => ?_, fun hw h2 h1 => ?_⟩
  · rw [ruleVoices_of_plays (c := .w) hw]
    exact mixVoice_scr_take n _ _
  · rw [ruleVoices_of_silent (c := .w) hw, ruleVoices_of_plays (c := .p2) h2]
    exact mixVoice_scr_take n _ _
  · rw [ruleVoices_of_silent (c := .w) hw, ruleVoices_of_silent (c := .p2) h2, ruleVoices_of_plays (c := .p1) h1]
    exact mixVoice_scr_take n _ _
  · rw [ruleVoices_of_silent (c := .w) hw, ruleVoices_of_silent (c := .p2) h2, ruleVoices_of_silent (c := .p1) h1]
    rfl

/-- The zeroed master buffer as `n` samples and the rest. -/
theorem zeroMaster_mst_split (s : State) {n : Nat} (hn : n ≤ s.params.frameSampleCount) :
    s.zeroMaster.mst = asSamples (fun _ => 0) n ++ List.replicate (s.params.frameSampleCount - n) 0 := by
  rw [asSamples_zero, List.replicate_append_replicate, Nat.add_sub_cancel' hn, State.zeroMaster_mst]

/-- `TICK` from the state conditions alone: it completes with the three voices of the rules mixed in. -/
theorem exec_tick_of_renders {s : State} {cap n : Nat} (ha : s.sinkAnswers cap) (hr : s.renders)
    (hn : n = min cap s.params.frameSampleCount) :
    exec .tick s = .next
      (((mixVoices n (advanceAll s.consumeAnswer.zeroMaster) (ruleVoices s n)).sinkWrite n).respond .ok) := by
  obtain ⟨hopen, hcap⟩ := ha
  have hexec : exec .tick s = mixerTick n s.consumeAnswer := by simp [exec, execTick, hopen, hcap, hn]
  rw [hexec]
  exact mixerTick_of_ok fun c => (voice_consumeAnswer _ s c).trans (voice_of_renders hr _ c)

theorem consumeAnswer_sink (s : State) :
    s.consumeAnswer.sink = { s.sink with answers := s.sink.answers.tail } := by
  rw [← State.consumeAnswer_answers]
  exact congrArg (Sink.mk · s.consumeAnswer.sink.answers) (State.consumeAnswer_isOpen s)

/-- Settles O39: TICK's channels and exchanges are those of every completing TICK; its buffers are the three voices of
the rules, mixed into zeros. -/
theorem tickFollowsItsRule : Obligations.TickFollowsItsRule := by
  intro s cap ha hr n
  have hexec := exec_tick_of_renders (n := n) ha hr rfl
  have hzero := zeroMaster_mst_split s.consumeAnswer (n := n) (by simp [n])
  rw [State.consumeAnswer_params] at hzero
  have hmst := mixVoices_mst (s := s) (b := advanceAll s.consumeAnswer.zeroMaster) hzero
  have hblock := (congrArg (List.take n) hmst).trans (List.take_left' (mixedBlock_length s n))
  obtain ⟨hscrW, hscrP2, hscrP1, hscr⟩ := mixVoices_scr s (advanceAll s.consumeAnswer.zeroMaster) n
  obtain ⟨hp1, hp2, hw⟩ := exec_channels hexec
  obtain ⟨cap', -, hcap, -, -, -, hout, hresponses, hparams, hport, hsink⟩ := execTick_next_effect hexec
  obtain rfl : cap = cap' := Option.some.inj (ha.2.symm.trans hcap)
  exact ⟨_, hexec, hp1.trans (tick_apply_eq_pulseAfterTick _), hp2.trans (tick_apply_eq_pulseAfterTick _),
    hw.trans (tick_apply_eq_waveAfterTick _), hout.trans (congrArg (s.out ++ [·]) hblock), hmst, hscrW, hscrP2, hscrP1,
    fun hw h2 h1 => (hscr hw h2 h1).trans (State.consumeAnswer_scr s), hresponses, hparams, hport,
    hsink.trans (consumeAnswer_sink s)⟩

/-- Settles O43: the block of R206 with no channel playing. -/
theorem silenceIsTheZeroBlock : Obligations.SilenceIsTheZeroBlock := by
  intro s cap ha h1 h2 hw
  have hr : s.renders := ⟨by simp [h1], by simp [h2], by simp [hw]⟩
  obtain ⟨t, hexec, hp1, hp2, hpw, hout, -, -, -, -, hscr, -⟩ := tickFollowsItsRule s cap ha hr
  refine ⟨t, hexec, ?_, ?_, ?_, ?_, hscr hw h2 h1⟩
  · rw [hout, mixedBlock]; simp [mixedSample, h1, h2, hw]
  · rw [hp1, ← tick_apply_eq_pulseAfterTick, tick_apply_of_silent h1]
  · rw [hp2, ← tick_apply_eq_pulseAfterTick, tick_apply_of_silent h2]
  · rw [hpw, ← tick_apply_eq_waveAfterTick, waveEffect_tick_of_silent hw]

/-! ### Every TICK that completes -/

/-- Settles O42: the block is a part of the master buffer TICK leaves; RESET and the writes go nowhere near the sink. -/
theorem onlyTickWritesToTheSink : Obligations.OnlyTickWritesToTheSink := by
  intro i s t h
  rcases exec_next_cases h with ⟨rfl, htick⟩ | ⟨rfl, rfl⟩ | ⟨hi, -, rfl⟩
  · obtain ⟨cap, -, hcap, -, -, -, hout, -⟩ := execTick_next_effect htick
    exact ⟨fun _ => ⟨cap, hcap, hout⟩, fun hi => absurd rfl hi⟩
  · exact ⟨fun hi => (by cases hi), fun _ => ⟨rfl, rfl⟩⟩
  · exact ⟨fun htick => absurd htick hi, fun _ => ⟨rfl, rfl⟩⟩

/-- Settles O44: what the scratch buffer holds before a TICK is not observed, so it may as well be in form, and from
there the block is in range. -/
theorem tickSamplesAreAtMostNine : Obligations.TickSamplesAreAtMostNine := by
  intro s t h
  have hagree := buffersAndFreeValuesAreUnobservable .tick s s.mst (List.replicate s.params.frameSampleCount 0)
    s.freeDraws (.inl rfl)
  rw [h] at hagree
  obtain ⟨t', htick, hsame⟩ := next_of_outcomesAgree hagree
  obtain ⟨-, -, block, hblock, -, hle⟩ := execTick_buffers (by simp [Buffer.wf_iff]) htick
  obtain ⟨-, -, -, hout, -⟩ := hsame
  exact ⟨block, hout.trans hblock, hle⟩

/-- Settles O45: a channel after a command depends on the command and that channel alone. -/
theorem channelsAdvanceWhateverTheCapacity : Obligations.ChannelsAdvanceWhateverTheCapacity := by
  intro s t t' answers h h'
  obtain ⟨hp1, hp2, hw⟩ := StateRules.channelsAreIndependent .tick _ _ _ _ h' h
  exact ⟨hp1 rfl, hp2 rfl, hw rfl⟩

end Sys2Proof.Proofs.TickBlock
end

section
/-! PROOF. RESET: the state it leaves, from every state (R221, R222; D20, D28). -/

namespace Sys2Proof.Proofs.Reset

open Sys2Proof.Machine Sys2Proof.Rules Sys2Proof.Proofs.StateRules

theorem exec_reset (s : State) : exec .reset s = .next (s.resetChannels.respond .ok) := rfl

/-- The values of the two buffers are free after RESET, their number is not. -/
theorem resetChannels_buffer_lengths (s : State) :
    s.resetChannels.mst.length = s.params.frameSampleCount ∧ s.resetChannels.scr.length = s.params.frameSampleCount :=
  (resetChannels_wf s).imp (Buffer.wf_iff _ _).1 (Buffer.wf_iff _ _).1

/-- Settles O49: RESET puts the channels' reset values and two buffers of free values of the same size, and everything
else it leaves is the old state's but for the one response. -/
theorem resetRestoresTheDefaults : Obligations.ResetRestoresTheDefaults := fun s =>
  ⟨_, exec_reset s, pulseDefaults_reset, pulseDefaults_reset, waveDefaults_reset, rfl, rfl, rfl, rfl, rfl,
    resetChannels_buffer_lengths s⟩

end Sys2Proof.Proofs.Reset
end

section
/-! PROOF. When TICK is refused, and the idle step (R234, R237, R246, R251, R261; D13, D22). -/

namespace Sys2Proof.Proofs.Exceptions

open Sys2Proof.Machine Sys2Proof.Proofs.Voices Sys2Proof.Proofs.Mixer

/-! ### When TICK is refused -/

theorem tickChannel_ne_refused (n : Nat) (s : State) (c : Channel) (r : Refusal) : tickChannel n s c ≠ .refused r := by
  cases h : voice n s c with
  | error e => simp [tickChannel_of_error h]
  | ok v => simp [tickChannel_of_ok h]

/-- Behind the sink's answer nothing refuses: a refusal comes before the channel ticks (D13, D22). -/
theorem mixerTick_ne_refused (n : Nat) (s : State) (r : Refusal) : mixerTick n s ≠ .refused r := by
  simp [mixerTick_eq, andThen_eq_refused, tickChannel_ne_refused]

/-- The sink gives no capacity exactly when the next answer listed is negative; a free answer is never negative (R246). -/
theorem sinkCapacity_eq_none {s : State} :
    sinkCapacity s = none ↔ ∃ answer rest, s.sink.answers = answer :: rest ∧ answer < 0 := by
  unfold sinkCapacity
  rcases s.sink.answers with _ | ⟨_ | _, rest⟩
  · simp
  · simp
  · simp [Int.negSucc_lt_zero]

theorem execTick_eq_refused {s : State} {r : Refusal} :
    execTick s = .refused r ↔ (s.sink.isOpen = false ∧ r = .sinkClosed) ∨
      (s.sink.isOpen = true ∧ r = .negativeCapacity ∧ sinkCapacity s = none) := by
  unfold execTick
  cases s.sink.isOpen with
  | false => simp [eq_comm]
  | true =>
    cases sinkCapacity s with
    | none => simp [eq_comm]
    | some cap => simp [mixerTick_ne_refused]

/-- Settles O41: only the sink refuses a TICK, and an open one only by a negative answer. -/
theorem tickIsRefusedExactlyByTheSink : Obligations.TickIsRefusedExactlyByTheSink := by
  intro s r
  rw [← sinkCapacity_eq_none]
  exact execTick_eq_refused

/-! ### The idle step -/

/-- Settles O10: the fetch finds no command at an empty port. -/
theorem stepWithoutACommandChangesNothing : Obligations.StepWithoutACommandChangesNothing := fun _ => step_of_no_command

end Sys2Proof.Proofs.Exceptions
end
